-- ==== Sys2Proof/Word.lean ====
section
/-! DEFINITION. The words LMS moves: command words, status words, colour words. -/

namespace Sys2Proof

/-- A command word `cmd_data[15:0]` (30_encoding.md R70): one 16-bit unit with no byte order (20_memory.md R51). -/
abbrev CmdWord := BitVec 16

/-- The value of the read-only output `status[15:0]` (10_state.md R31). -/
abbrev StatusWord := BitVec 16

/-- A colour word (20_memory.md R51): an indivisible unit of COLOR_W bits that LMS never splits, reorders or
inspects. COLOR_W is a parameter of at least 24, so a colour is a natural (00_scope.md R8) and the width is the bound
`colour < 2 ^ COLOR_W`, kept as an invariant (Safety.lean, `State.ColorsFit`). Assumption log entry 6. -/
abbrev Color := Nat

/-- OFF (00_scope.md R6): the all-zero colour word, the canonical "LED off" sentinel. -/
def off : Color := 0

/-- A position on the strip or in a frame, 0..24 (00_scope.md R6, R14). -/
abbrev Slot := Fin 25

/-- A digit that names a glyph, 0..9 (00_scope.md R6). -/
abbrev Digit := Fin 10

/-- A word address of the GlyphBank that holds data, 0..249 (20_memory.md R54). -/
abbrev RomAddr := Fin 250

end Sys2Proof
end

