-- ==== Sys2Proof/Syntax.lean ====
section
/-! DEFINITION. The commands of LMS, one constructor per row of spec/opcode_table.json (30_encoding.md R72). -/

namespace Sys2Proof

/-- The LMS command set, spec revision 1 (00_scope.md R2). ARG is an unsigned 8-bit number (30_encoding.md R73). -/
inductive Instr where
  /-- NOP (41_commands.md R112). -/
  | nop
  /-- INIT (41_commands.md R115). -/
  | init
  /-- CLEAR (41_commands.md R119). -/
  | clear
  /-- RENDER d (41_commands.md R122); d in 10..255 is a command too, and faults when executed (30_encoding.md R79). -/
  | render (d : BitVec 8)
  /-- CHAR c (41_commands.md R127); every character code is a command. -/
  | char (c : BitVec 8)
deriving DecidableEq, Repr

end Sys2Proof
end

