-- ==== Sys2Proof/WellFormed.lean ====
section
/-! DEFINITION. The format CMD16 (30_encoding.md R70) and the checks a command word must pass (R76, R77, R78). -/

namespace Sys2Proof

/-- A word in the format CMD16 (30_encoding.md R70), its fields pulled apart. -/
structure Cmd16 where
  /-- OP, bits [15:12]: the operation. -/
  op : BitVec 4
  /-- RSV, bits [11:8]: reserved, must be 0. -/
  rsv : BitVec 4
  /-- ARG, bits [7:0]: the operand. -/
  arg : BitVec 8
deriving DecidableEq, Repr

/-- Why a word is Illegal (30_encoding.md R74). -/
inductive Reject where
  /-- RSV ≠ 0 (30_encoding.md R77). -/
  | reservedFieldNonzero
  /-- OP in 0x5..0xF (30_encoding.md R76). -/
  | reservedOp
  /-- ARG ≠ 0 in NOP, INIT or CLEAR (30_encoding.md R78). -/
  | argNonzero
deriving DecidableEq, Repr

/-- RSV is 0 (30_encoding.md R77). -/
def Cmd16.rsvZero (c : Cmd16) : Bool := c.rsv == 0#4

/-- OP names an operation (30_encoding.md R72, R76). -/
def Cmd16.opDefined (c : Cmd16) : Bool := decide (c.op.toNat ≤ 4)

/-- ARG is 0 where the operation takes no operand (30_encoding.md R78). -/
def Cmd16.argAllowed (c : Cmd16) : Bool := decide (3 ≤ c.op.toNat) || c.arg == 0#8

/-- The three checks together. -/
def Cmd16.wellFormed (c : Cmd16) : Bool := c.rsvZero && c.opDefined && c.argAllowed

/-- The first check a word fails, in the order of 30_encoding.md R74. -/
def Cmd16.reject (c : Cmd16) : Option Reject :=
  if !c.rsvZero then some .reservedFieldNonzero
  else if !c.opDefined then some .reservedOp
  else if !c.argAllowed then some .argNonzero
  else none

/-- OP of each command (30_encoding.md R72). -/
def Instr.op : Instr → BitVec 4
  | .nop => 0x0#4
  | .init => 0x1#4
  | .clear => 0x2#4
  | .render _ => 0x3#4
  | .char _ => 0x4#4

/-- ARG of each command (30_encoding.md R72). -/
def Instr.arg : Instr → BitVec 8
  | .nop => 0x00#8
  | .init => 0x00#8
  | .clear => 0x00#8
  | .render d => d
  | .char c => c

/-- The fields of a command, RSV = 0 (30_encoding.md R83). -/
def Instr.fields (i : Instr) : Cmd16 := ⟨i.op, 0x0#4, i.arg⟩

/-- A command is well-formed when its fields pass the checks. Every value of `Instr` does (Laws/PerInstr.lean). -/
def Instr.wellFormed (i : Instr) : Bool := i.fields.wellFormed

end Sys2Proof
end

