-- ==== Sys2Proof/Decode.lean ====
section
/-! DEFINITION. The decoder over all 65536 words (30_encoding.md R74), and the encoder (30_encoding.md R70, R72). -/

namespace Sys2Proof

/-- OP = `w[15:12]` (30_encoding.md R70). -/
def opField (w : CmdWord) : BitVec 4 := w.extractLsb' 12 4

/-- RSV = `w[11:8]` (30_encoding.md R70). -/
def rsvField (w : CmdWord) : BitVec 4 := w.extractLsb' 8 4

/-- ARG = `w[7:0]` (30_encoding.md R70). -/
def argField (w : CmdWord) : BitVec 8 := w.extractLsb' 0 8

/-- The fields of a word. -/
def splitWord (w : CmdWord) : Cmd16 := ⟨opField w, rsvField w, argField w⟩

/-- The command that OP names, with its operand (30_encoding.md R72); none where OP is reserved (R76). -/
def instrOf (op : BitVec 4) (arg : BitVec 8) : Option Instr :=
  match op.toNat with
  | 0 => some .nop
  | 1 => some .init
  | 2 => some .clear
  | 3 => some (.render arg)
  | 4 => some (.char arg)
  | _ => none

/-- Decode (30_encoding.md R74): a command, or the reason why the word is Illegal. No state is read (R71). -/
def decode (w : CmdWord) : Except Reject Instr :=
  match (splitWord w).reject with
  | some r => .error r
  | none =>
    match instrOf (opField w) (argField w) with
    | some i => .ok i
    | none => .error .reservedOp

/-- The word with the given fields: `{OP, RSV, ARG}` (30_encoding.md R70). -/
def joinFields (c : Cmd16) : CmdWord := c.op ++ c.rsv ++ c.arg

/-- The word of a command (30_encoding.md R72, R84). -/
def encode (i : Instr) : CmdWord := joinFields i.fields

/-- What the decoder reads from a word written as a number; a number of more than 16 bits is no command word
(30_encoding.md R71). The table gives every row 16 bits. -/
def decodeTableWord (nbits w : Nat) : Option Instr :=
  if nbits ≤ 16 ∧ w < 2 ^ 16 then (decode (BitVec.ofNat 16 w)).toOption else none

end Sys2Proof
end

