-- ==== Sys2Proof/Config.lean ====
section
/-! DEFINITION. The configuration of 10_state.md R37 and the free values of the model. -/

namespace Sys2Proof

/-- N_ROW (00_scope.md R6). -/
def nRow : Nat := 5

/-- N_COL (00_scope.md R6). -/
def nCol : Nat := 5

/-- N_PIX (00_scope.md R6). -/
def nPix : Nat := 25

/-- N_GLYPH (00_scope.md R6). -/
def nGlyph : Nat := 10

/-- The build-time parameters of an LMS (00_scope.md R7, 10_state.md R37), which no step changes. They are plain
data, so that a claim about every state is a claim about every configuration. Assumption log entries 5, 6 and 18. -/
structure Params where
  /-- COLOR_W (D19): the width of a colour word, at least 24. -/
  colorW : Nat
  /-- TXQ_DEPTH (D18): the capacity of the transmit queue in words, at least 1. -/
  txqDepth : Nat
  /-- The GlyphBank (10_state.md R24), laid out by word address 25·d + p (20_memory.md R54). -/
  rom : Vector Color 250
  /-- C_ON (D20): the one non-zero colour of the reference glyphs; read by the premise P_GLYPH alone. -/
  cOn : Color
  /-- OUTPUT_PIN (D36): the pin `led_out` is bound to when INIT succeeds. -/
  outputPin : Nat
  /-- WIRE_ENCODING (D25): names the line encoding; whole words are observed, so nothing reads it. -/
  wireEncoding : Nat
  /-- COLOR_LAYOUT (D26): names the component order inside a colour word; nothing reads it (20_memory.md R51). -/
  colorLayout : Nat
deriving DecidableEq, Repr

/-- The ranges that 00_scope.md R7 gives the parameters: COLOR_W ≥ 24, TXQ_DEPTH ≥ 1, C_ON ≠ 0, and every glyph word
and C_ON of COLOR_W bits. -/
def Params.valid (p : Params) : Bool :=
  decide (24 ≤ p.colorW) && decide (1 ≤ p.txqDepth) && p.rom.toList.all (fun c => decide (c < 2 ^ p.colorW))
    && decide (0 < p.cOn) && decide (p.cOn < 2 ^ p.colorW)

/-- Property P_GLYPH (10_state.md R25): every glyph word is 0 or C_ON. No step assumes it. -/
def Params.pGlyph (p : Params) : Bool :=
  p.rom.toList.all (fun c => decide (c = 0 ∨ c = p.cOn))

namespace Config

/-- FREE VALUE (91_not_in_source.md N1, D20): the glyph word at a ROM address of the reset configuration. -/
opaque freeRomWord : Nat → BitVec 24

/-- FREE VALUE (91_not_in_source.md N2, D20): names C_ON of the reset configuration. -/
opaque freeCOn : Nat

/-- FREE VALUE (91_not_in_source.md N6, D18): TXQ_DEPTH of the reset configuration, less 1. -/
opaque freeTxqDepth : Nat

/-- FREE VALUE (91_not_in_source.md N7, D36): OUTPUT_PIN of the reset configuration. -/
opaque freeOutputPin : Nat

/-- FREE VALUE (91_not_in_source.md N4, D25): WIRE_ENCODING of the reset configuration. -/
opaque freeWireEncoding : Nat

/-- FREE VALUE (91_not_in_source.md N3, D26): COLOR_LAYOUT of the reset configuration. -/
opaque freeColorLayout : Nat

/-- FREE VALUE (91_not_in_source.md N11, D22): what each strip slot holds at power-on, "any value, a draw". -/
opaque freeStripWord : Nat → BitVec 24

/-- The default COLOR_W (00_scope.md R7, D19). -/
def colorWDefault : Nat := 24

/-- `n` words given by a function of their index. -/
def vecOf (n : Nat) (f : Nat → Color) : Vector Color n :=
  ⟨((List.range n).map f).toArray, by simp⟩

/-- The configuration of `State.reset`: COLOR_W is its default, every OPEN parameter is a free value in the range
00_scope.md R7 gives it. Assumption log entry 5. -/
def openParams : Params where
  colorW := colorWDefault
  txqDepth := freeTxqDepth + 1
  rom := vecOf 250 (fun a => (freeRomWord a).toNat)
  cOn := freeCOn % (2 ^ colorWDefault - 1) + 1
  outputPin := freeOutputPin
  wireEncoding := freeWireEncoding
  colorLayout := freeColorLayout

/-- What STRIP holds at power-on (10_state.md R21, 70_reset_and_hazards.md R182). Assumption log entry 7. -/
def powerOnStrip : Vector Color 25 :=
  vecOf 25 (fun i => (freeStripWord i).toNat)

end Config

end Sys2Proof
end

