-- ==== Sys2Proof/Machine/State.lean ====
section
/-! DEFINITION. The state of LMS (10_state.md R20, R21), the inputs of its environment, and the state after reset. -/

namespace Sys2Proof.Machine

/-- ST, the lifecycle (10_state.md R22). -/
inductive St where
  /-- No INIT has succeeded since the last reset. -/
  | uninit
  /-- Initialized, with no pass in progress. -/
  | idle
  /-- A pass is in progress; no command is accepted. -/
  | stream
  /-- Halted after a fault; only reset leaves this state. -/
  | fault
deriving DecidableEq, Repr

/-- OPK, the kind of the pass (10_state.md R21). -/
inductive Opk where
  /-- A clear pass. -/
  | zero
  /-- A render pass. -/
  | glyph
deriving DecidableEq, Repr

/-- FCODE (60_exceptions.md R161); the codes 6 and 7 are never produced. -/
inductive FCode where
  /-- No fault. -/
  | none
  /-- The word decodes as Illegal (60_exceptions.md R162). -/
  | illegalCmd
  /-- CLEAR, RENDER or CHAR before INIT (41_commands.md R121). -/
  | notInit
  /-- A second INIT (41_commands.md R117). -/
  | reinit
  /-- RENDER of a digit above 9 (41_commands.md R124). -/
  | badDigit
  /-- INIT with `claim_ok` = 0 (41_commands.md R116). -/
  | claimFail
deriving DecidableEq, Repr

/-- One turn of the interleaving (00_scope.md R11, R12; 60_exceptions.md R178): which agent moves next, and with what.
Assumption log entry 1. -/
inductive Turn where
  /-- The Host queues one more word behind those it already offers (41_commands.md R111). -/
  | hostOffer (w : CmdWord)
  /-- The Host reads `status`, which has no side effect (20_memory.md R57). -/
  | hostReadStatus
  /-- The Host holds `rst_n` low on a clock edge (70_reset_and_hazards.md R180). -/
  | hostReset
  /-- The platform drives `claim_ok` to a level (10_state.md R34, D16). -/
  | platformClaim (ok : Bool)
  /-- The Sequencer takes its enabled step, an accept or a push (41_commands.md R110, 42_stream_serializer.md R144). -/
  | sequencer
  /-- The Serializer takes its drain (42_stream_serializer.md R146). -/
  | serializer
deriving DecidableEq, Repr

/-- The state: the tuple of 10_state.md R20, the configuration of R37, and the inputs of the environment. -/
structure State where
  /-- ST. -/
  st : St
  /-- OPK. -/
  opk : Opk
  /-- DIG, 4 bits. -/
  dig : BitVec 4
  /-- K, 5 bits: the slot whose word is pushed next (10_state.md R29). -/
  k : BitVec 5
  /-- MACT, "a digit frame is currently displayed" (10_state.md R30). -/
  mact : Bool
  /-- CLAIMED, the output resource (10_state.md R30). -/
  claimed : Bool
  /-- FCODE. -/
  fcode : FCode
  /-- TXQ, head first (10_state.md R35). -/
  txq : List Color
  /-- W, 5 bits: the slot the next delivered word reaches (10_state.md R26). -/
  w : BitVec 5
  /-- STRIP[0..24] (10_state.md R26). -/
  strip : Vector Color 25
  /-- WIRE, oldest word first (10_state.md R27). -/
  wire : List Color
  /-- The configuration; no step writes it (10_state.md R37). -/
  cfg : Params
  /-- INPUT: the words the Host has yet to see accepted; the head is on `cmd_data` with `cmd_valid` = 1
  (10_state.md R34). Assumption log entry 2. -/
  offers : List CmdWord
  /-- INPUT: the level of `claim_ok` (10_state.md R34). Assumption log entry 3. -/
  claimOk : Bool
  /-- PREMISE HEALTHY_CHANNEL (42_stream_serializer.md R149): once no turn is listed, the Serializer still moves.
  Assumption log entry 4. -/
  healthy : Bool
  /-- INPUT: the turns to come, next first. Assumption log entry 1. -/
  turns : List Turn
deriving DecidableEq, Repr

/-- Where a step has no meaning. The invariants of 10_state.md R38 rule all three out, so no run from reset reaches
one; a command never raises one (its faults are next states, 60_exceptions.md R164). Assumption log entry 9. -/
inductive Fault where
  /-- Raised by a push with K in 25..31, where Map and Word have no meaning (40_index_mapper.md R101). Safe. -/
  | counterOutOfRange
  /-- Raised by a push of a GLYPH pass with DIG in 10..15, whose ROM word does not exist (20_memory.md R54). Safe. -/
  | digitOutOfRange
  /-- Raised by a drain with W in 25..31, where STRIP has no slot (10_state.md R21). Safe. -/
  | wirePositionOutOfRange
deriving DecidableEq, Repr

/-- Why an instruction has no meaning here. -/
inductive Refusal where
  /-- Raised by an arm of `exec` whose instruction has no meaning yet; no arm raises it now. Safe. -/
  | notModelled (mnemonic : String)
deriving DecidableEq, Repr

/-- The state right after reset (70_reset_and_hazards.md R180, R181, R182): every register at its reset value, TXQ
and WIRE empty, STRIP any value. The configuration is open (log entry 5); nothing is offered, the platform answers 1,
the channel is healthy and no turn is listed (log entries 1 to 4). -/
def State.reset : State where
  st := .uninit
  opk := .zero
  dig := 0#4
  k := 0#5
  mact := false
  claimed := false
  fcode := .none
  txq := []
  w := 0#5
  strip := Config.powerOnStrip
  wire := []
  cfg := Config.openParams
  offers := []
  claimOk := true
  healthy := true
  turns := []

end Sys2Proof.Machine
end

