-- ==== Sys2Proof/Machine/Flags.lean ====
section
/-! DEFINITION. The outputs: `cmd_ready`, `status` and its flags, and the bound pin. -/

namespace Sys2Proof.Machine

/-- The 2-bit value of ST (10_state.md R21). -/
def St.code : St → BitVec 2
  | .uninit => 0#2
  | .idle => 1#2
  | .stream => 2#2
  | .fault => 3#2

/-- The 1-bit value of OPK (10_state.md R21). -/
def Opk.code : Opk → BitVec 1
  | .zero => 0#1
  | .glyph => 1#1

/-- The 3-bit value of FCODE (60_exceptions.md R161). -/
def FCode.code : FCode → BitVec 3
  | .none => 0#3
  | .illegalCmd => 1#3
  | .notInit => 2#3
  | .reinit => 3#3
  | .badDigit => 4#3
  | .claimFail => 5#3

/-- The output `cmd_ready` (10_state.md R33): 1 iff ST is UNINIT or IDLE. -/
def State.cmdReady (s : State) : Bool :=
  match s.st with
  | .uninit => true
  | .idle => true
  | .stream => false
  | .fault => false

/-- The input `cmd_valid` (10_state.md R34): the Host offers a word. -/
def State.cmdValid (s : State) : Bool := !s.offers.isEmpty

/-- BUSY, `status[1]`: ST = STREAM (10_state.md R31). -/
def State.busy (s : State) : Bool := s.st == .stream

/-- TXQ_EMPTY, `status[3]` (10_state.md R31). -/
def State.txqEmpty (s : State) : Bool := s.txq.length == 0

/-- TXQ_FULL, `status[4]` (10_state.md R31). -/
def State.txqFull (s : State) : Bool := s.txq.length == s.cfg.txqDepth

/-- FAULT, `status[5]` (10_state.md R31). -/
def State.faulted (s : State) : Bool := s.st == .fault

/-- `zext_16( {FCODE[2:0], 0b00, FAULT, TXQ_FULL, TXQ_EMPTY, MACT, BUSY, INIT} )` (10_state.md R32). -/
def packStatus (code : BitVec 3) (faulted full empty mact busy claimed : Bool) : StatusWord :=
  (code ++ 0b00#2 ++ BitVec.ofBool faulted ++ BitVec.ofBool full ++ BitVec.ofBool empty ++ BitVec.ofBool mact
    ++ BitVec.ofBool busy ++ BitVec.ofBool claimed).setWidth 16

/-- The output `status[15:0]` (10_state.md R31, R32), defined in every state; to compute it changes nothing (R31). -/
def State.status (s : State) : StatusWord :=
  packStatus s.fcode.code s.faulted s.txqFull s.txqEmpty s.mact s.busy s.claimed

/-- The pin `led_out` is bound to: OUTPUT_PIN from the moment INIT succeeds (41_commands.md R115, D36). -/
def State.boundPin (s : State) : Option Nat := if s.claimed then some s.cfg.outputPin else none

end Sys2Proof.Machine
end

