-- ==== Sys2Proof/Machine/Mapper.lean ====
section
/-! DEFINITION. The IndexMapper (40_index_mapper.md): the serpentine map from logical to physical position. -/

namespace Sys2Proof.Machine

/-- Map(i) (40_index_mapper.md R100), typed on 0..24 as R101 asks. -/
def indexMap (i : Slot) : Slot :=
  let row := i.val / 5
  let col := i.val % 5
  if row % 2 = 0 then ⟨24 - (row * 5 + col), by omega⟩
  else ⟨24 - (row * 5 + (4 - col)), by omega⟩

/-- The closed form of Map (40_index_mapper.md R103), as a number. -/
def indexMapClosed (i : Slot) : Nat :=
  let r := i.val / 5
  let c := i.val % 5
  if r % 2 = 0 then 5 * (4 - r) + (4 - c) else 5 * (4 - r) + c

end Sys2Proof.Machine
end

