-- ==== Sys2Proof/Machine/Operands.lean ====
section
/-! DEFINITION. The operand forms: RENDER's digit, CHAR's character, and the registers read as positions. -/

namespace Sys2Proof.Machine

/-- RENDER's digit d = ARG (30_encoding.md R73): some DIG value for 0..9, none for 10..255 (41_commands.md R124). -/
def renderDigit (d : BitVec 8) : Option (BitVec 4) :=
  if d.toNat ≤ 9 then some (BitVec.ofNat 4 d.toNat) else none

/-- The digit test of CHAR, 0x30 ≤ c ≤ 0x39 (30_encoding.md R73). -/
def isDigitChar (c : BitVec 8) : Bool := decide (0x30 ≤ c.toNat) && decide (c.toNat ≤ 0x39)

/-- CHAR's digit c − 0x30, formed only where the test holds (30_encoding.md R73). -/
def charDigit (c : BitVec 8) : Option (BitVec 4) :=
  if isDigitChar c then some (BitVec.ofNat 4 (c.toNat - 0x30)) else none

/-- A 5-bit register read as a position 0..24 (10_state.md R21); none for 25..31. -/
def slotOf (v : BitVec 5) : Option Slot :=
  if h : v.toNat < 25 then some ⟨v.toNat, h⟩ else none

/-- DIG read as a digit 0..9 (10_state.md R21); none for 10..15. -/
def digitOf (v : BitVec 4) : Option Digit :=
  if h : v.toNat < 10 then some ⟨v.toNat, h⟩ else none

end Sys2Proof.Machine
end

