-- ==== Sys2Proof/Machine/Ops.lean ====
section
/-! DEFINITION. The named operations over the state: the primitives of 00_scope.md R10, StartPass, taking a fault,
and reset, which is the only way out of one. -/

namespace Sys2Proof.Machine

/-- `raise Fault(code)` (60_exceptions.md R164): FCODE and ST are written, and nothing else. -/
def State.raiseFault (s : State) (c : FCode) : State := { s with fcode := c, st := .fault }

/-- Reset (70_reset_and_hazards.md R180): the only return from a fault (60_exceptions.md R168). STRIP, WIRE, the
configuration and the inputs stay. -/
def State.resetBlock (s : State) : State :=
  { s with
    st := .uninit, opk := .zero, dig := 0#4, k := 0#5, mact := false, claimed := false, fcode := .none,
    txq := [], w := 0#5 }

/-- StartPass(kind, d) (41_commands.md R110). -/
def State.startPass (s : State) (kind : Opk) (d : BitVec 4) : State :=
  { s with opk := kind, dig := d, k := 0#5, st := .stream }

/-- MACT ← b. -/
def State.setMact (s : State) (b : Bool) : State := { s with mact := b }

/-- CLAIMED ← 1: the resource is claimed and `led_out` bound (41_commands.md R115). -/
def State.claim (s : State) : State := { s with claimed := true }

/-- The effect of CLEAR's execution (41_commands.md R119), shared by INIT's initial clear and CHAR (R130). -/
def State.beginClear (s : State) : State := (s.setMact false).startPass .zero 0#4

/-- The effect of RENDER's execution (41_commands.md R122), shared by CHAR (R128). -/
def State.beginRender (s : State) (d : BitVec 4) : State := (s.setMact true).startPass .glyph d

/-- The accept step exists only where `cmd_ready` = 1; otherwise the offer waits and nothing changes
(41_commands.md R110). -/
def whenReady (s : State) (f : State → State) : Host.Outcome State Fault Refusal :=
  .next (if s.cmdReady then f s else s)

/-- The lifecycle check of CLEAR, RENDER and CHAR (41_commands.md R110, R121). -/
def whenClaimed (f : State → State) (s : State) : State :=
  if s.claimed then f s else s.raiseFault .notInit

/-- The ROM address 25·d + p (20_memory.md R54), always in 0..249 (R53). -/
def romAddr (d : Digit) (p : Slot) : RomAddr := ⟨25 * d.val + p.val, by omega⟩

/-- `MemRead(ROM, a)` (00_scope.md R10); no side effect (20_memory.md R57). -/
def memRead (cfg : Params) (a : RomAddr) : Color := cfg.rom[a]

/-- GLYPH[d][p] (10_state.md R24, 20_memory.md R54). -/
def glyphWord (cfg : Params) (d : Digit) (p : Slot) : Color := memRead cfg (romAddr d p)

/-- `TxPush(w)` (00_scope.md R10). -/
def State.txPush (s : State) (x : Color) : State := { s with txq := s.txq ++ [x] }

/-- The end of a push (42_stream_serializer.md R144): after slot 24 the pass is complete, otherwise K advances. -/
def State.advancePass (s : State) : State :=
  { s with
    k := if s.k.toNat = 24 then 0#5 else s.k + 1#5, st := if s.k.toNat = 24 then .idle else s.st }

/-- `TxPop()` (00_scope.md R10), the word itself being the head the caller has read. -/
def State.txPop (s : State) : State := { s with txq := s.txq.tail }

/-- `StripWrite(w)` (00_scope.md R10), at slot i = W (42_stream_serializer.md R147). -/
def State.stripWrite (s : State) (i : Slot) (x : Color) : State :=
  { s with
    strip := s.strip.set i.val x, w := BitVec.ofNat 5 ((i.val + 1) % 25), wire := s.wire ++ [x] }

/-- The turns that remain after the current one. -/
def State.withTurns (s : State) (ts : List Turn) : State := { s with turns := ts }

/-- The words the Host offers. -/
def State.withOffers (s : State) (ws : List CmdWord) : State := { s with offers := ws }

/-- The level of the input `claim_ok`. -/
def State.withClaimOk (s : State) (b : Bool) : State := { s with claimOk := b }

end Sys2Proof.Machine
end

