-- ==== Sys2Proof/Machine/Commands.lean ====
section
/-! DEFINITION. The five commands (41_commands.md): for each, its lifecycle checks in the order of 60_exceptions.md
R166, its faults, and its execution. -/

namespace Sys2Proof.Machine

/-- NOP (41_commands.md R112): no effect; legal before INIT. -/
def execNop (s : State) : Host.Outcome State Fault Refusal :=
  whenReady s (fun s => s)

/-- INIT (41_commands.md R115): REINIT if CLAIMED = 1 (R117), CLAIM_FAIL if `claim_ok` = 0 (R116), otherwise the
resource is claimed and the initial clear starts. -/
def execInit (s : State) : Host.Outcome State Fault Refusal :=
  whenReady s (fun s =>
    if s.claimed then s.raiseFault .reinit
    else if s.claimOk then s.claim.beginClear
    else s.raiseFault .claimFail)

/-- CLEAR (41_commands.md R119), NOT_INIT if CLAIMED = 0 (R121). -/
def execClear (s : State) : Host.Outcome State Fault Refusal :=
  whenReady s (whenClaimed (fun s => s.beginClear))

/-- RENDER d (41_commands.md R122), NOT_INIT if CLAIMED = 0 (R121), then BAD_DIGIT if d > 9 (R124). -/
def execRender (d : BitVec 8) (s : State) : Host.Outcome State Fault Refusal :=
  whenReady s (whenClaimed (fun s =>
    match renderDigit d with
    | some n => s.beginRender n
    | none => s.raiseFault .badDigit))

/-- CHAR c (41_commands.md R127), NOT_INIT if CLAIMED = 0 (R121): a digit renders (R128); any other character clears
if MACT = 1 (R130) and does nothing if MACT = 0 (R131). -/
def execChar (c : BitVec 8) (s : State) : Host.Outcome State Fault Refusal :=
  whenReady s (whenClaimed (fun s =>
    match charDigit c with
    | some n => s.beginRender n
    | none => if s.mact then s.beginClear else s))

end Sys2Proof.Machine
end

