-- ==== Sys2Proof/Machine/Dispatch.lean ====
section
/-! DEFINITION. One arm per command (41_commands.md R110): `exec` is the accept step of a decoded word. -/

namespace Sys2Proof.Machine

def exec (i : Instr) (s : State) : Host.Outcome State Fault Refusal :=
  match i with
  | .nop => Sys2Proof.Machine.execNop s
  | .init => Sys2Proof.Machine.execInit s
  | .clear => Sys2Proof.Machine.execClear s
  | .render d => Sys2Proof.Machine.execRender d s
  | .char c => Sys2Proof.Machine.execChar c s

end Sys2Proof.Machine
end

