-- ==== Sys2Proof/Machine/Accept.lean ====
section
/-! DEFINITION. The accept step (41_commands.md R110): the word on the command port is taken, decoded and executed,
or raises ILLEGAL_CMD. -/

namespace Sys2Proof.Machine

/-- Accepting a word: its command is executed; an Illegal word raises ILLEGAL_CMD (60_exceptions.md R162), which is
checked before every other fault (R166). -/
def acceptWord (w : CmdWord) (s : State) : Host.Outcome State Fault Refusal :=
  match decode w with
  | .ok i => exec i s
  | .error _ => whenReady s (fun s => s.raiseFault .illegalCmd)

/-- The accept step: enabled where the Host offers a word and `cmd_ready` = 1; elsewhere nothing moves and the offer
waits (41_commands.md R110). -/
def accept (s : State) : Host.Outcome State Fault Refusal :=
  match s.offers with
  | [] => .next s
  | w :: rest => if s.cmdReady then acceptWord w (s.withOffers rest) else .next s

end Sys2Proof.Machine
end

