-- ==== Sys2Proof/Machine/Stream.lean ====
section
/-! DEFINITION. The two steps that move colour words (42_stream_serializer.md): push and drain. -/

namespace Sys2Proof.Machine

/-- Word(kind, d, k) (42_stream_serializer.md R141) on typed positions. -/
def passWord (cfg : Params) (kind : Opk) (d : Digit) (k : Slot) : Color :=
  match kind with
  | .zero => off
  | .glyph => glyphWord cfg d (indexMap k)

/-- Word(OPK, DIG, K) from the registers. A ZERO pass ignores DIG (42_stream_serializer.md R141); a K or DIG that is
never held has no word (40_index_mapper.md R101, 20_memory.md R54). -/
def State.nextWord (s : State) : Except Fault Color :=
  match slotOf s.k with
  | none => .error .counterOutOfRange
  | some k =>
    match s.opk, digitOf s.dig with
    | .zero, _ => .ok (passWord s.cfg .zero 0 k)
    | .glyph, some d => .ok (passWord s.cfg .glyph d k)
    | .glyph, none => .error .digitOutOfRange

/-- A push is enabled iff ST = STREAM and |TXQ| < TXQ_DEPTH (42_stream_serializer.md R144). -/
def State.pushEnabled (s : State) : Bool := s.busy && decide (s.txq.length < s.cfg.txqDepth)

/-- A drain is enabled iff |TXQ| > 0 (42_stream_serializer.md R146). -/
def State.drainEnabled (s : State) : Bool := !s.txqEmpty

/-- Push (42_stream_serializer.md R144); where it is not enabled the Sequencer holds (R145). -/
def push (s : State) : Host.Outcome State Fault Refusal :=
  if s.pushEnabled then
    match s.nextWord with
    | .ok x => .next (s.txPush x).advancePass
    | .error f => .fault f
  else .next s

/-- Drain (42_stream_serializer.md R146), in any ST (R148); where TXQ is empty nothing moves. -/
def drain (s : State) : Host.Outcome State Fault Refusal :=
  match s.txq with
  | [] => .next s
  | x :: _ =>
    match slotOf s.w with
    | some i => .next (s.txPop.stripWrite i x)
    | none => .fault .wirePositionOutOfRange

end Sys2Proof.Machine
end

