-- ==== Sys2Proof/Machine/Schedule.lean ====
section
/-! DEFINITION. What each turn does, and what moves when no turn is listed (00_scope.md R11, R12). -/

namespace Sys2Proof.Machine

/-- The Sequencer's turn: an accept in UNINIT and IDLE (41_commands.md R110), a push in STREAM
(42_stream_serializer.md R144), nothing in FAULT (60_exceptions.md R168). -/
def sequencerStep (s : State) : Host.Outcome State Fault Refusal :=
  match s.st with
  | .uninit => accept s
  | .idle => accept s
  | .stream => push s
  | .fault => .next s

/-- One listed turn, already taken off the list. A turn whose step is not enabled changes nothing more.
Assumption log entries 1 and 13. -/
def takeTurn (t : Turn) (s : State) : Host.Outcome State Fault Refusal :=
  match t with
  | .hostOffer w => .next (s.withOffers (s.offers ++ [w]))
  | .hostReadStatus => .next s
  | .hostReset => .next s.resetBlock
  | .platformClaim ok => .next (s.withClaimOk ok)
  | .sequencer => sequencerStep s
  | .serializer => drain s

/-- With no turn listed: a push if one is enabled (42_stream_serializer.md R149: the push is weakly fair), else a drain
if one is enabled and the channel is healthy (R149), else the accept of an offered word; if none of these can be, the
state stays as it is: quiescent, or a hang (R145, R153). Assumption log entry 1. -/
def freeTurn (s : State) : Host.Outcome State Fault Refusal :=
  if s.pushEnabled then push s
  else if s.drainEnabled && s.healthy then drain s
  else accept s

/-- The next turn of the interleaving. -/
def nextTurn (s : State) : Host.Outcome State Fault Refusal :=
  match s.turns with
  | [] => freeTurn s
  | t :: ts => takeTurn t (s.withTurns ts)

/-- Put a word on the command port and give the Sequencer the next turn, so that the next step accepts it.
Assumption log entry 17. -/
def State.offerNext (s : State) (w : CmdWord) : State :=
  { s with offers := w :: s.offers, turns := .sequencer :: s.turns }

end Sys2Proof.Machine
end

