-- ==== Sys2Proof/Machine/Step.lean ====
section
/-! DEFINITION. One step of the machine, and placing an instruction where the next step fetches it. -/

namespace Sys2Proof.Machine

/-- One step: the next turn of the interleaving (00_scope.md R11). -/
def step (s : State) : Host.Outcome State Fault Refusal := nextTurn s

/-- `s` with the word offered at the head of the command port and the Sequencer to move next. Where `cmd_ready` = 1 the
next step accepts it. Assumption log entry 17. -/
def State.withFetchWord (s : State) (_nbits w : Nat) : State := s.offerNext (BitVec.ofNat 16 w)

end Sys2Proof.Machine
end

