-- ==== Sys2Proof/Machine/Assembler.lean ====
section
/-! DEFINITION. The assembler of 30_encoding.md R83: a line of source text to a command word. -/

namespace Sys2Proof.Machine

/-- A command as an assembler line writes it (30_encoding.md R83). -/
inductive Asm where
  /-- `NOP` -/
  | nop
  /-- `INIT` -/
  | init
  /-- `CLEAR` -/
  | clear
  /-- `RENDER d` -/
  | render (d : Nat)
  /-- `CHAR x` with x a number -/
  | charNum (x : Nat)
  /-- `CHAR 'c'` with a quoted character -/
  | charLit (c : Char)
deriving DecidableEq, Repr

/-- Why the assembler refuses a line. -/
inductive AsmReject where
  /-- The mnemonic is none of the five. -/
  | unknownMnemonic
  /-- An operand is missing, malformed or one too many. -/
  | badOperand
  /-- A number above 255, or a character that has no ASCII code (above 127: assumption log entry 14). -/
  | outOfRange
deriving DecidableEq, Repr

/-- The operand fits ARG: a number 0..255, or an ASCII character (30_encoding.md R83). -/
def Asm.wellFormed : Asm → Bool
  | .nop => true
  | .init => true
  | .clear => true
  | .render d => decide (d ≤ 255)
  | .charNum x => decide (x ≤ 255)
  | .charLit c => decide (c.toNat ≤ 127)

/-- The command a line stands for; RENDER takes 0..255 so that BAD_DIGIT can be tested (30_encoding.md R83). -/
def Asm.instr : Asm → Instr
  | .nop => .nop
  | .init => .init
  | .clear => .clear
  | .render d => .render (BitVec.ofNat 8 d)
  | .charNum x => .char (BitVec.ofNat 8 x)
  | .charLit c => .char (BitVec.ofNat 8 c.toNat)

/-- The word of a command line, RSV = 0 and ARG = 0 for the operand-less commands (30_encoding.md R83). -/
def Asm.assemble (a : Asm) : Except AsmReject CmdWord :=
  if a.wellFormed then .ok (encode a.instr) else .error .outOfRange

/-- A piece of a line: a bare word or a quoted character. -/
inductive Token where
  /-- Characters between blanks. -/
  | word (cs : List Char)
  /-- `'c'` -/
  | quoted (c : Char)
deriving DecidableEq, Repr

/-- Close the word collected so far (its characters are reversed). -/
def flushWord (acc : List Char) : List Token := if acc.isEmpty then [] else [.word acc.reverse]

/-- A space, a tab or a carriage return: what counts as a blank is the model's choice (assumption log entry 14). -/
def isBlankChar (c : Char) : Bool := c.toNat == 32 || c.toNat == 9 || c.toNat == 13

/-- The pieces of a line; `;` begins a comment (30_encoding.md R83). DESIGN CHOICE, unsafe (assumption log entry 14),
where R83 is silent: a quote, any character and a quote are a literal wherever they stand, `';'` and a quoted blank among
them, and it ends the word before it, so no blank is needed on either side of it (`CHAR'x'` is `CHAR 'x'`); any other
quote is a character of its word; `;` ends a word with no blank before it; elsewhere blanks separate the pieces. -/
def lexLine : List Char → List Char → List Token
  | [], acc => flushWord acc
  | [a], acc => if isBlankChar a || a.toNat == 59 then flushWord acc else flushWord (a :: acc)
  | [a, b], acc =>
    if a.toNat == 59 then flushWord acc
    else if isBlankChar a then flushWord acc ++ lexLine [b] []
    else lexLine [b] (a :: acc)
  | a :: b :: c :: rest, acc =>
    if a.toNat == 39 && c.toNat == 39 then flushWord acc ++ .quoted b :: lexLine rest []
    else if a.toNat == 59 then flushWord acc
    else if isBlankChar a then flushWord acc ++ lexLine (b :: c :: rest) []
    else lexLine (b :: c :: rest) (a :: acc)

/-- A capital ASCII letter for a small one: mnemonics are case-insensitive (30_encoding.md R83). -/
def upperCode (c : Char) : Nat := if 97 ≤ c.toNat ∧ c.toNat ≤ 122 then c.toNat - 32 else c.toNat

/-- The value of a digit in the given base; a hexadecimal letter may be capital or small (assumption log entry 14). -/
def digitValue (base : Nat) (c : Char) : Option Nat :=
  let n := upperCode c
  let v := if 48 ≤ n ∧ n ≤ 57 then n - 48 else if 65 ≤ n ∧ n ≤ 70 then n - 55 else 16
  if v < base then some v else none

/-- The digits of a number, most significant first, added to the value so far. -/
def digitsValue (base : Nat) : List Char → Nat → Option Nat
  | [], acc => some acc
  | c :: cs, acc =>
    match digitValue base c with
    | some v => digitsValue base cs (acc * base + v)
    | none => none

/-- A decimal or `0x` hexadecimal number (30_encoding.md R83). DESIGN CHOICE (assumption log entry 14): leading zeros and
`0X` are taken, a sign is not, and CHAR's number has the two forms of RENDER's. -/
def numberOf : List Char → Option Nat
  | [] => none
  | [c] => digitsValue 10 [c] 0
  | [c, d] => digitsValue 10 [c, d] 0
  | c :: x :: d :: cs =>
    if c.toNat = 48 ∧ upperCode x = 88 then digitsValue 16 (d :: cs) 0
    else digitsValue 10 (c :: x :: d :: cs) 0

/-- The capital codes of a mnemonic. -/
def mnemonicCodes (cs : List Char) : List Nat := cs.map upperCode

/-- The command that the pieces of a line write; none on an empty or comment line. Which refusal a malformed line gets is
the model's choice (assumption log entry 14). -/
def parseTokens : List Token → Except AsmReject (Option Asm)
  | [] => .ok none
  | .quoted _ :: _ => .error .unknownMnemonic
  | .word m :: operands =>
    let name := mnemonicCodes m
    if name = mnemonicCodes ['N', 'O', 'P'] then
      if operands.isEmpty then .ok (some .nop) else .error .badOperand
    else if name = mnemonicCodes ['I', 'N', 'I', 'T'] then
      if operands.isEmpty then .ok (some .init) else .error .badOperand
    else if name = mnemonicCodes ['C', 'L', 'E', 'A', 'R'] then
      if operands.isEmpty then .ok (some .clear) else .error .badOperand
    else if name = mnemonicCodes ['R', 'E', 'N', 'D', 'E', 'R'] then
      match operands with
      | [.word n] =>
        match numberOf n with
        | some d => .ok (some (.render d))
        | none => .error .badOperand
      | _ => .error .badOperand
    else if name = mnemonicCodes ['C', 'H', 'A', 'R'] then
      match operands with
      | [.word n] =>
        match numberOf n with
        | some x => .ok (some (.charNum x))
        | none => .error .badOperand
      | [.quoted c] => .ok (some (.charLit c))
      | _ => .error .badOperand
    else .error .unknownMnemonic

/-- One line of source: a command word, nothing (blank or comment), or a refusal (30_encoding.md R83). -/
def assembleLine (line : List Char) : Except AsmReject (Option CmdWord) :=
  match parseTokens (lexLine line []) with
  | .error r => .error r
  | .ok none => .ok none
  | .ok (some a) =>
    match a.assemble with
    | .ok w => .ok (some w)
    | .error r => .error r

/-- A program, one command per line: the words in order (30_encoding.md R83). One refused line refuses the program, under
the name of the first (assumption log entry 14). -/
def assembleLines : List (List Char) → Except AsmReject (List CmdWord)
  | [] => .ok []
  | l :: ls =>
    match assembleLine l, assembleLines ls with
    | .ok (some w), .ok ws => .ok (w :: ws)
    | .ok none, .ok ws => .ok ws
    | .error r, _ => .error r
    | .ok _, .error r => .error r

end Sys2Proof.Machine
end

