-- ==== Sys2Proof/Machine/Cycle.lean ====
section
/-! DEFINITION. The informative clock edge of 70_reset_and_hazards.md R192, as an order of the atomic steps. No other
definition uses it. -/

namespace Sys2Proof.Machine

/-- One rising edge of `clk`. With `rst_n` = 0 it is a reset, which overrides every other step on that edge
(70_reset_and_hazards.md R180). With `rst_n` = 1 the Sequencer takes at most one accept or push, on the queue count
sampled before the edge, and the Serializer delivers one word if `delivers` holds and a word was queued before the edge:
its drain makes no room for that edge's push (R192). Assumption log entry 16. -/
def edge (rstN delivers : Bool) (s : State) : Host.Outcome State Fault Refusal :=
  if rstN then
    match sequencerStep s with
    | .next t => if delivers && s.drainEnabled then drain t else .next t
    | .fault f => .fault f
    | .refused r => .refused r
  else .next s.resetBlock

/-- The turns that an edge stands for. -/
def edgeTurns (rstN delivers : Bool) (s : State) : List Turn :=
  if rstN then
    if delivers && s.drainEnabled then [.sequencer, .serializer] else [.sequencer]
  else [.hostReset]

end Sys2Proof.Machine
end

