-- ==== Sys2Proof/Safety.lean ====
section
/-! DEFINITION. What counts as a safe run, in the terms claims use: the invariants of 10_state.md R38, the words a
command promises (42_stream_serializer.md R143), and the ends of a run (R153). -/

namespace Sys2Proof.Machine

/-- `n` steps, stopping at the first fault or refusal (`Host.Core.run` of this machine, on `State` itself). -/
def run : Nat → State → Host.Outcome State Fault Refusal
  | 0, s => .next s
  | n + 1, s =>
    match step s with
    | .next t => run n t
    | .fault f => .fault f
    | .refused r => .refused r

/-- The invariants of 10_state.md R38, in its order, with the range that R21 gives W. -/
structure State.Inv (s : State) : Prop where
  /-- R38, 1. -/
  uninit : s.st = .uninit → s.claimed = false ∧ s.txq = []
  /-- R38, 2. -/
  live : s.st = .idle ∨ s.st = .stream → s.claimed = true
  /-- R38, 3. -/
  faulted : s.st = .fault ↔ s.fcode ≠ .none
  /-- R38, 4. -/
  digit : s.st = .stream → s.opk = .glyph → s.dig.toNat ≤ 9
  /-- R38, 5. -/
  counter : s.k.toNat ≤ 24 ∧ (s.st ≠ .stream → s.k = 0#5)
  /-- R38, 6: a word pushed for slot k reaches STRIP[k]. -/
  aligned : (s.w.toNat + s.txq.length) % 25 = if s.st = .stream then s.k.toNat else 0
  /-- R38, 7. -/
  depth : s.txq.length ≤ s.cfg.txqDepth
  /-- R21: W is in 0..24. -/
  position : s.w.toNat ≤ 24

/-- Every colour word the machine holds has COLOR_W bits (10_state.md R21, R24). -/
def State.ColorsFit (s : State) : Prop :=
  (∀ a : RomAddr, memRead s.cfg a < 2 ^ s.cfg.colorW) ∧ (∀ c ∈ s.txq, c < 2 ^ s.cfg.colorW) ∧
    (∀ i : Slot, s.strip[i] < 2 ^ s.cfg.colorW) ∧ (∀ c ∈ s.wire, c < 2 ^ s.cfg.colorW)

/-- The pass (42_stream_serializer.md R143): Word(kind, d, 0), …, Word(kind, d, 24). -/
def passWords (cfg : Params) (kind : Opk) (d : Digit) : List Color :=
  (List.finRange 25).map (passWord cfg kind d)

/-- The pass the registers OPK and DIG name. -/
def State.currentPass (s : State) : List Color := passWords s.cfg s.opk ((digitOf s.dig).getD 0)

/-- The words of the pass in progress that are not pushed yet: those for slots K..24. -/
def State.unsent (s : State) : List Color :=
  if s.st = .stream then s.currentPass.drop s.k.toNat else []

/-- Every word delivered, queued, or still to be pushed, in order. -/
def State.promised (s : State) : List Color := s.wire ++ s.txq ++ s.unsent

/-- The words that accepting the command `i` in the state `s` adds to the stream, from the text of 41_commands.md R115,
R119, R122 and R127 (not from `exec`): 25 words, or none. -/
def commandPass (i : Instr) (s : State) : List Color :=
  match i with
  | .nop => []
  | .init => if !s.claimed && s.claimOk then List.replicate 25 off else []
  | .clear => if s.claimed then List.replicate 25 off else []
  | .render d =>
    if h : d.toNat < 10 then
      if s.claimed then (List.finRange 25).map (fun k => glyphWord s.cfg ⟨d.toNat, h⟩ (indexMap k)) else []
    else []
  | .char c =>
    if h : 0x30 ≤ c.toNat ∧ c.toNat ≤ 0x39 then
      if s.claimed then
        (List.finRange 25).map (fun k => glyphWord s.cfg ⟨c.toNat - 0x30, by omega⟩ (indexMap k))
      else []
    else if s.claimed && s.mact then List.replicate 25 off else []

/-- The word that the next step accepts, if its turn is an accept (41_commands.md R110). -/
def State.acceptsNow (s : State) : Option CmdWord :=
  match s.turns with
  | .sequencer :: _ => if s.cmdReady then s.offers.head? else none
  | [] =>
    if s.pushEnabled || (s.drainEnabled && s.healthy) then none
    else if s.cmdReady then s.offers.head? else none
  | _ => none

/-- The words that the next step adds to the stream. -/
def State.stepPass (s : State) : List Color :=
  match s.acceptsNow with
  | none => []
  | some w =>
    match decode w with
    | .ok i => commandPass i s
    | .error _ => []

/-- The passes of the commands accepted over `n` steps, in acceptance order (20_memory.md R60). -/
def passesOver : Nat → State → List Color
  | 0, _ => []
  | n + 1, s =>
    s.stepPass ++
      match step s with
      | .next t => passesOver n t
      | .fault _ => []
      | .refused _ => []

/-- No step is enabled (42_stream_serializer.md R153): no accept, no push, no drain. -/
def State.quiescent (s : State) : Bool :=
  !(s.cmdReady && s.cmdValid) && !s.pushEnabled && !s.drainEnabled

/-- A good end (42_stream_serializer.md R153): quiescent in UNINIT or IDLE. -/
def State.final (s : State) : Bool := s.quiescent && s.cmdReady

/-- The Sequencer is blocked by a full queue that the failed channel no longer drains (42_stream_serializer.md R145,
R153). -/
def State.blocked (s : State) : Bool :=
  s.busy && s.txqFull && !s.healthy && s.turns.isEmpty

/-- Neither a reset nor a new offer is still to come. -/
def State.undisturbed (s : State) : Bool :=
  s.offers.isEmpty && s.turns.all (fun t =>
    match t with
    | .hostOffer _ => false
    | .hostReadStatus => true
    | .hostReset => false
    | .platformClaim _ => true
    | .sequencer => true
    | .serializer => true)

/-- No reset is still to come. -/
def State.noReset (s : State) : Bool := s.turns.all (fun t => t != .hostReset)

/-- The same block built with another pin, line encoding and colour layout. -/
def State.rebuilt (s : State) (pin encoding layout : Nat) : State :=
  { s with cfg := { s.cfg with outputPin := pin, wireEncoding := encoding, colorLayout := layout } }

end Sys2Proof.Machine
end

