-- ==== Sys2Proof/Certificates/Slice0/Obligations.lean ====
section
/-! DEFINITION. The statements for the provers. A turn of `State.turns` is the model's plain-data form of "steps of
different agents interleave in any order" (00_scope.md R11; assumption log entry 1): a statement over every state is a
statement over every interleaving. -/

open Sys2Proof Sys2Proof.Machine

/-! ### Encoding (30_encoding.md) -/

/-- R72, R74: decoding the word of a command gives the command back, every operand at every value. -/
def Obligations.DecodeOfEncodeIsIdentity : Prop :=
  ∀ i : Instr, decode (encode i) = .ok i

/-- R74, R77, R78: no bit of a decoded word is ignored; the one word of a command is the one that decodes to it. -/
def Obligations.DecodedWordIsTheEncoding : Prop :=
  ∀ (w : CmdWord) (i : Instr), decode w = .ok i → encode i = w

/-- R76, R77, R78: a word with a reserved OP, with RSV ≠ 0, or with ARG ≠ 0 in NOP, INIT or CLEAR decodes as Illegal, and
accepting it raises ILLEGAL_CMD and does nothing else. The fields are those of R70, cut out by arithmetic. -/
def Obligations.MalformedWordsAreIllegal : Prop :=
  ∀ w : CmdWord,
    (5 ≤ w.toNat / 4096 ∨ w.toNat / 256 % 16 ≠ 0 ∨ (w.toNat / 4096 ≤ 2 ∧ w.toNat % 256 ≠ 0)) →
      (∃ r, decode w = .error r) ∧
        ∀ s : State, s.cmdReady = true → acceptWord w s = .next { s with fcode := .illegalCmd, st := .fault }

/-- R81: how many of the 65536 words are commands, and which. -/
def Obligations.CommandWordCounts : Prop :=
  let words (p : Instr → Bool) : Nat :=
    (Finset.univ.filter (fun n : Fin 65536 => (decode (BitVec.ofFin n)).toOption.any p)).card
  words (fun _ => true) = 515 ∧ words (fun i => i == .nop) = 1 ∧ words (fun i => i == .init) = 1 ∧
    words (fun i => i == .clear) = 1 ∧ words (fun i => i.op == 3#4) = 256 ∧ words (fun i => i.op == 4#4) = 256 ∧
    (∀ (w : CmdWord) (d : BitVec 8), decode w = .ok (.render d) →
      (d.toNat ≤ 9 ↔ 0x3000 ≤ w.toNat ∧ w.toNat ≤ 0x3009)) ∧
    words (fun i => i.op == 3#4 && decide (i.arg.toNat ≤ 9)) = 10 ∧
    (Finset.univ.filter (fun n : Fin 65536 => (decode (BitVec.ofFin n)).toOption = none)).card = 65021

/-- 30_encoding.md R84 and 95_test_vectors.md V13: a few words, one of each command and some Illegal ones. -/
def Obligations.SampleWordsDecode : Prop :=
  decode 0x0000#16 = .ok .nop ∧ decode 0x1000#16 = .ok .init ∧ decode 0x2000#16 = .ok .clear ∧
    decode 0x3003#16 = .ok (.render 3#8) ∧ decode 0x300A#16 = .ok (.render 10#8) ∧
    decode 0x4037#16 = .ok (.char 0x37#8) ∧ decode 0x5000#16 = .error .reservedOp ∧
    decode 0x3A0C#16 = .error .reservedFieldNonzero ∧ decode 0x10FF#16 = .error .argNonzero

/-- R83: the assembler puts a number 0..255 into ARG, refuses a greater one, and takes a quoted ASCII character as its
code; RSV is 0. -/
def Obligations.AssemblerPlacesOperands : Prop :=
  (∀ n : Nat, n ≤ 255 →
    (∃ w, (Asm.render n).assemble = .ok w ∧ w.toNat = 0x3000 + n ∧ decode w = .ok (.render (BitVec.ofNat 8 n))) ∧
      (∃ w, (Asm.charNum n).assemble = .ok w ∧ w.toNat = 0x4000 + n ∧ decode w = .ok (.char (BitVec.ofNat 8 n)))) ∧
    (∀ n : Nat, 255 < n →
      (Asm.render n).assemble = .error .outOfRange ∧ (Asm.charNum n).assemble = .error .outOfRange) ∧
    (∀ c : Char, c.toNat ≤ 127 → ∃ w, (Asm.charLit c).assemble = .ok w ∧ w.toNat = 0x4000 + c.toNat)

/-! ### IndexMapper (40_index_mapper.md) -/

/-- R103, R105, R106, R107: Map has the closed form, is a bijection and its own inverse, and fixes 12 alone. -/
def Obligations.IndexMapIsAnInvolution : Prop :=
  (∀ i : Slot, (indexMap i).val = indexMapClosed i) ∧ Function.Bijective indexMap ∧
    (∀ i : Slot, indexMap (indexMap i) = i) ∧ ∀ i : Slot, indexMap i = i ↔ i = 12

/-! ### What the commands do (41_commands.md) -/

/-- R112: NOP changes nothing, in UNINIT and in IDLE. -/
def Obligations.NopChangesNothing : Prop :=
  ∀ s : State, s.st = .uninit ∨ s.st = .idle → exec .nop s = .next s

/-- R115: a successful INIT claims the resource and starts the initial clear; every other field stays. -/
def Obligations.InitClaimsAndStartsClear : Prop :=
  ∀ s : State, s.st = .uninit ∨ s.st = .idle → s.claimed = false → s.claimOk = true →
    exec .init s = .next { s with claimed := true, mact := false, opk := .zero, dig := 0#4, k := 0#5, st := .stream }

/-- R119: CLEAR starts a zero pass, whatever MACT and STRIP hold; every other field stays. -/
def Obligations.ClearStartsZeroPass : Prop :=
  ∀ s : State, s.st = .uninit ∨ s.st = .idle → s.claimed = true →
    exec .clear s = .next { s with mact := false, opk := .zero, dig := 0#4, k := 0#5, st := .stream }

/-- R122: RENDER d with d ≤ 9 starts the pass of glyph d; every other field stays. -/
def Obligations.RenderStartsGlyphPass : Prop :=
  ∀ (s : State) (d : BitVec 8), s.st = .uninit ∨ s.st = .idle → s.claimed = true → d.toNat ≤ 9 →
    exec (.render d) s =
      .next { s with mact := true, opk := .glyph, dig := d.setWidth 4, k := 0#5, st := .stream }

/-- R127: CHAR c after INIT, for every c: a digit renders, another character clears if MACT = 1 and does nothing if
MACT = 0. -/
def Obligations.CharDispatches : Prop :=
  ∀ (s : State) (c : BitVec 8), s.st = .uninit ∨ s.st = .idle → s.claimed = true →
    exec (.char c) s =
      .next (
        if 0x30 ≤ c.toNat ∧ c.toNat ≤ 0x39 then
          { s with mact := true, opk := .glyph, dig := (c - 0x30#8).setWidth 4, k := 0#5, st := .stream }
        else if s.mact = true then { s with mact := false, opk := .zero, dig := 0#4, k := 0#5, st := .stream }
        else s)

/-- R128: a digit character has exactly the effect of RENDER of its digit, in every state. -/
def Obligations.CharDigitActsAsRender : Prop :=
  ∀ (s : State) (c : BitVec 8), 0x30 ≤ c.toNat → c.toNat ≤ 0x39 →
    exec (.char c) s = exec (.render (c - 0x30#8)) s

/-- R130: a non-digit with MACT = 1 has exactly the effect of CLEAR, in every state, and where it executes that is
MACT ← 0 and a zero pass. -/
def Obligations.CharNonDigitActsAsClear : Prop :=
  ∀ (s : State) (c : BitVec 8), ¬(0x30 ≤ c.toNat ∧ c.toNat ≤ 0x39) → s.mact = true →
    exec (.char c) s = exec .clear s ∧
      (s.cmdReady = true → s.claimed = true →
        exec (.char c) s = .next { s with mact := false, opk := .zero, dig := 0#4, k := 0#5, st := .stream })

/-- R131: a non-digit with MACT = 0 has no effect; and for every other command the pass it starts and the lifecycle do
not depend on MACT. -/
def Obligations.MactMattersOnlyToNonDigitChar : Prop :=
  (∀ (s : State) (c : BitVec 8), ¬(0x30 ≤ c.toNat ∧ c.toNat ≤ 0x39) → s.mact = false → s.cmdReady = true →
    s.claimed = true → exec (.char c) s = .next s) ∧
    ∀ (s t : State) (i : Instr) (b : Bool),
      (∀ c : BitVec 8, i = .char c → 0x30 ≤ c.toNat ∧ c.toNat ≤ 0x39) → exec i s = .next t →
        ∃ t', exec i { s with mact := b } = .next t' ∧ { t' with mact := t.mact } = t

/-- R117: a second INIT raises REINIT and has no other effect, whatever `claim_ok` is. -/
def Obligations.SecondInitFaults : Prop :=
  ∀ s : State, s.cmdReady = true → s.claimed = true →
    exec .init s = .next { s with fcode := .reinit, st := .fault }

/-- R116: INIT with `claim_ok` = 0 raises CLAIM_FAIL; CLAIMED stays 0 and no word is pushed. (INIT reaches this check
with CLAIMED = 0 only: R115, R166.) -/
def Obligations.FailedClaimFaults : Prop :=
  ∀ s : State, s.cmdReady = true → s.claimed = false → s.claimOk = false →
    exec .init s = .next { s with fcode := .claimFail, st := .fault }

/-- R121: CLEAR, RENDER and CHAR with CLAIMED = 0 raise NOT_INIT, whatever the operand, and have no other effect. -/
def Obligations.CommandsBeforeInitFault : Prop :=
  ∀ s : State, s.cmdReady = true → s.claimed = false →
    exec .clear s = .next { s with fcode := .notInit, st := .fault } ∧
      (∀ d, exec (.render d) s = .next { s with fcode := .notInit, st := .fault }) ∧
      ∀ c, exec (.char c) s = .next { s with fcode := .notInit, st := .fault }

/-- R124: RENDER with d > 9 raises BAD_DIGIT and pushes no word, with any ROM in place of this one (none is read). -/
def Obligations.BadDigitFaults : Prop :=
  ∀ (s : State) (d : BitVec 8) (rom : Vector Color 250), s.cmdReady = true → s.claimed = true → 9 < d.toNat →
    exec (.render d) { s with cfg := { s.cfg with rom := rom } } =
      .next { s with cfg := { s.cfg with rom := rom }, fcode := .badDigit, st := .fault }

/-- R166: the accept step reports the first fault that applies, in the order ILLEGAL_CMD, REINIT or NOT_INIT, BAD_DIGIT,
CLAIM_FAIL, and faults in no other case. -/
def Obligations.FaultPriority : Prop :=
  ∀ (s : State) (w : CmdWord), s.cmdReady = true →
    ∃ t, acceptWord w s = .next t ∧
      (if (decode w).toOption = none then t = { s with fcode := .illegalCmd, st := .fault }
      else if decode w = .ok .init ∧ s.claimed = true then t = { s with fcode := .reinit, st := .fault }
      else if decode w ≠ .ok .nop ∧ decode w ≠ .ok .init ∧ s.claimed = false then
        t = { s with fcode := .notInit, st := .fault }
      else if ∃ d : BitVec 8, decode w = .ok (.render d) ∧ 9 < d.toNat then
        t = { s with fcode := .badDigit, st := .fault }
      else if decode w = .ok .init ∧ s.claimOk = false then t = { s with fcode := .claimFail, st := .fault }
      else t.st ≠ .fault ∧ t.fcode = s.fcode)

/-- R165: faults are precise: a command that faults changes FCODE and ST and nothing else; and a step that faults is the
accept of the word on the port, with no effect but the code (so no push, no drain and no step in STREAM faults). -/
def Obligations.FaultsArePrecise : Prop :=
  (∀ (i : Instr) (s t : State), s.st ≠ .fault → exec i s = .next t → t.st = .fault →
    ∃ c : FCode, c ≠ .none ∧ t = { s with fcode := c, st := .fault }) ∧
    ∀ s t : State, s.st ≠ .fault → step s = .next t → t.st = .fault →
      (s.st = .uninit ∨ s.st = .idle) ∧ ∃ (w : CmdWord) (rest : List CmdWord) (c : FCode), s.offers = w :: rest ∧
        c ≠ .none ∧ t = { s with offers := rest, turns := s.turns.tail, fcode := c, st := .fault }

/-- R110, R33: in STREAM and in FAULT there is no accept: a command changes nothing, and the Sequencer's turn leaves the
Host's offer where it is. -/
def Obligations.CommandsWaitWhileNotReady : Prop :=
  ∀ s : State, s.st = .stream ∨ s.st = .fault →
    (∀ i : Instr, exec i s = .next s) ∧
      ∀ (ts : List Turn) (t : State), s.turns = .sequencer :: ts → step s = .next t → t.offers = s.offers

/-- The frame of all five commands: the queue, the strip, the wire, the configuration and the inputs stay; FCODE stays
unless the command faults; OPK, DIG and K stay unless it starts a pass; CLAIMED changes only by INIT, and only to 1; MACT
stays when the command is NOP or faults. -/
def Obligations.CommandFrame : Prop :=
  ∀ (i : Instr) (s t : State), exec i s = .next t →
    t.txq = s.txq ∧ t.w = s.w ∧ t.strip = s.strip ∧ t.wire = s.wire ∧ t.cfg = s.cfg ∧ t.offers = s.offers ∧
      t.claimOk = s.claimOk ∧ t.healthy = s.healthy ∧ t.turns = s.turns ∧
      (∀ a : RomAddr, memRead t.cfg a = memRead s.cfg a) ∧
      (t.st ≠ .fault → t.fcode = s.fcode) ∧
      (t.st ≠ .stream → t.opk = s.opk ∧ t.dig = s.dig ∧ t.k = s.k ∧ t.mact = s.mact ∧ t.claimed = s.claimed) ∧
      (i ≠ .init → t.claimed = s.claimed) ∧ (s.claimed = true → t.claimed = true) ∧ (i = .nop → t = s)

/-! ### Fetching a command from the port (41_commands.md R110) -/

/-- When the Sequencer has the turn, `cmd_ready` = 1 and the offered word decodes to a command, a step is that command's
execution, the word and the turn being used up. The same where no turn is listed and neither a push nor a drain can
move (the model's choice for an empty list, assumption log entry 1). -/
def Obligations.StepRunsDecodedCommand : Prop :=
  ∀ (s : State) (w : CmdWord) (rest : List CmdWord) (i : Instr), s.cmdReady = true → s.offers = w :: rest →
    decode w = .ok i →
      (∀ ts, s.turns = .sequencer :: ts → step s = exec i { s with offers := rest, turns := ts }) ∧
        (s.turns = [] → s.txq = [] → step s = exec i { s with offers := rest })

/-- R162, R110: likewise an Illegal word raises ILLEGAL_CMD, whatever CLAIMED and MACT hold. -/
def Obligations.StepFaultsOnIllegalWord : Prop :=
  ∀ (s : State) (w : CmdWord) (rest : List CmdWord) (r : Reject) (ts : List Turn), s.cmdReady = true →
    s.offers = w :: rest → decode w = .error r → s.turns = .sequencer :: ts →
      step s = .next { s with offers := rest, turns := ts, fcode := .illegalCmd, st := .fault }

/-! ### The stream (42_stream_serializer.md) -/

/-- R141, R144: a push of a ZERO pass appends 0 whatever DIG holds, a push of a GLYPH pass appends the word at ROM address
25·DIG + Map(K); K advances, and the push for slot 24 ends the pass. Every other field stays. -/
def Obligations.PushAppendsPassWord : Prop :=
  ∀ (s : State) (k : Slot), s.st = .stream → s.txq.length < s.cfg.txqDepth → s.k.toNat = k.val →
    (s.opk = .zero →
      push s = .next { s with
        txq := s.txq ++ [0], k := if k = 24 then 0#5 else s.k + 1#5, st := if k = 24 then .idle else .stream }) ∧
      ∀ (d : Digit) (a : RomAddr), s.opk = .glyph → s.dig.toNat = d.val → a.val = 25 * d.val + (indexMap k).val →
        push s = .next { s with
          txq := s.txq ++ [s.cfg.rom[a]], k := if k = 24 then 0#5 else s.k + 1#5
          st := if k = 24 then .idle else .stream }

/-- R146, R147, R148: a drain moves the head of TXQ to STRIP[W] and to the end of WIRE, and W to (W + 1) % 25, in every ST.
Every other field stays. -/
def Obligations.DrainDeliversHead : Prop :=
  ∀ (s : State) (x : Color) (rest : List Color) (i : Slot), s.txq = x :: rest → s.w.toNat = i.val →
    ∃ t, drain s = .next t ∧ t.strip = s.strip.set i.val x ∧ t.w.toNat = (i.val + 1) % 25 ∧
      t = { s with txq := rest, strip := t.strip, w := t.w, wire := s.wire ++ [x] }

/-- R147: over any step STRIP and WIRE change only by a delivery to STRIP[W], and W only by it or by a reset. -/
def Obligations.StripChangesOnlyByDelivery : Prop :=
  ∀ s t : State, step s = .next t →
    (t.strip = s.strip ∧ t.wire = s.wire ∧ (t.w = s.w ∨ s.turns.head? = some .hostReset ∧ t.w = 0#5)) ∨
      ∃ (x : Color) (rest : List Color) (i : Slot), s.txq = x :: rest ∧ s.w.toNat = i.val ∧ t.txq = rest ∧
        t.strip[i] = x ∧ (∀ j : Slot, j ≠ i → t.strip[j] = s.strip[j]) ∧ t.wire = s.wire ++ [x] ∧
        t.w.toNat = (i.val + 1) % 25

/-- R145: in STREAM with TXQ full the Sequencer's turn changes nothing (but the list of turns), and if the channel never
drains the hold lasts for ever. That the channel never drains is `healthy = false` with no turn listed, the model's
choice (assumption log entries 1 and 4). -/
def Obligations.FullQueueHoldsForEver : Prop :=
  (∀ (s : State) (ts : List Turn), s.st = .stream → s.txq.length = s.cfg.txqDepth → s.turns = .sequencer :: ts →
    step s = .next { s with turns := ts }) ∧
    ∀ (s : State) (n : Nat), s.blocked = true → run n s = .next s

/-! ### Outputs and reset (10_state.md, 70_reset_and_hazards.md) -/

/-- R31, R33: every bit of `status`, in every state; `cmd_ready`; a status read changes nothing (but the list of
turns). -/
def Obligations.StatusLayout : Prop :=
  ∀ s : State,
    s.status.getLsbD 0 = s.claimed ∧ (s.status.getLsbD 1 = true ↔ s.st = .stream) ∧ s.status.getLsbD 2 = s.mact ∧
      (s.status.getLsbD 3 = true ↔ s.txq.length = 0) ∧ (s.status.getLsbD 4 = true ↔ s.txq.length = s.cfg.txqDepth) ∧
      (s.status.getLsbD 5 = true ↔ s.st = .fault) ∧ s.status.extractLsb' 6 2 = 0#2 ∧
      s.status.extractLsb' 8 3 = s.fcode.code ∧ s.status.extractLsb' 11 5 = 0#5 ∧
      (s.cmdReady = true ↔ s.st = .uninit ∨ s.st = .idle) ∧
      ∀ ts, s.turns = .hostReadStatus :: ts → step s = .next { s with turns := ts }

/-- R180, R181: a reset, in every state, puts every register to its reset value and discards the queued words; STRIP and
WIRE stay, and after it `status` is 0x0008 and `cmd_ready` is 1 (TXQ_DEPTH ≥ 1, R7). The inputs and the configuration
stay. An edge with `rst_n` = 0 is a reset and nothing else, whatever else could move on it. -/
def Obligations.ResetStepRestoresRegisters : Prop :=
  ∀ s : State,
    let r : State := { s with
      st := .uninit, opk := .zero, dig := 0#4, k := 0#5, mact := false, claimed := false, fcode := .none
      txq := [], w := 0#5 }
    (∀ ts, s.turns = .hostReset :: ts → step s = .next { r with turns := ts }) ∧
      (∀ delivers, edge false delivers s = .next r) ∧ r.cmdReady = true ∧
      (1 ≤ s.cfg.txqDepth → r.status = 0x0008#16)

/-- R21, R38, R181, R182: what State.reset is: the invariants hold, `status` is 0x0008, WIRE is empty, and the open
parameters are in the ranges of R7 (their values are free: assumption log entries 5 and 7). -/
def Obligations.ResetStateMeetsInvariants : Prop :=
  State.reset.Inv ∧ State.reset.ColorsFit ∧ State.reset.cfg.valid = true ∧ State.reset.status = 0x0008#16 ∧
    State.reset.cmdReady = true ∧ State.reset.wire = []

/-! ### Invariants -/

/-- R38: the invariants hold after a reset, and every step keeps them. -/
def Obligations.StepKeepsInvariants : Prop :=
  (∀ s : State, s.resetBlock.Inv) ∧ ∀ s t : State, s.Inv → step s = .next t → t.Inv

/-- R165, R38: from a state that meets the invariants a step always answers a next state: no push leaves the ROM, no drain
leaves the strip, no command stops. -/
def Obligations.StepAlwaysAnswers : Prop :=
  ∀ s : State, s.Inv → ∃ t, step s = .next t

/-- R21, R24, R55: every colour word in the ROM, TXQ, STRIP and WIRE keeps COLOR_W bits. -/
def Obligations.StepKeepsColorWidth : Prop :=
  ∀ s t : State, s.ColorsFit → step s = .next t → t.ColorsFit

/-- R37: no step changes the configuration. -/
def Obligations.ConfigurationIsFixed : Prop :=
  ∀ s t : State, step s = .next t → t.cfg = s.cfg

/-- R168: only a reset leaves FAULT; until then the first code stays and no offer is taken; a state in FAULT is never
final. -/
def Obligations.OnlyResetLeavesFault : Prop :=
  ∀ s t : State, s.st = .fault → step s = .next t →
    s.final = false ∧
      (s.turns.head? = some .hostReset ∨ t.st = .fault ∧ t.fcode = s.fcode ∧ ∃ more, t.offers = s.offers ++ more)

/-- R30: CLAIMED becomes 1 only when the word of INIT is accepted and 0 only by reset; MACT changes only by reset or when
INIT, CLEAR, RENDER or CHAR is accepted. -/
def Obligations.FlagsChangeOnlyAtAcceptance : Prop :=
  ∀ s t : State, step s = .next t →
    (s.claimed = false → t.claimed = true → s.acceptsNow = some 0x1000#16) ∧
      (s.claimed = true → t.claimed = false → s.turns.head? = some .hostReset) ∧
      (t.mact ≠ s.mact → s.turns.head? = some .hostReset ∨
        ∃ (w : CmdWord) (i : Instr), s.acceptsNow = some w ∧ decode w = .ok i ∧ i ≠ .nop)

/-- R33, R56, R165, R172: while a pass is in progress only a reset cuts it short: otherwise ST stays STREAM or becomes
IDLE, OPK, DIG, MACT, CLAIMED and FCODE stay, no offer is taken, and K counts the words pushed one by one. -/
def Obligations.PassIsNeverInterrupted : Prop :=
  ∀ s t : State, s.st = .stream → s.turns.head? ≠ some .hostReset → step s = .next t →
    (t.st = .stream ∨ t.st = .idle) ∧ t.opk = s.opk ∧ t.dig = s.dig ∧ t.mact = s.mact ∧ t.claimed = s.claimed ∧
      t.fcode = s.fcode ∧ (∃ more, t.offers = s.offers ++ more) ∧
      (t.st = .stream → t.k = s.k ∨ t.k = s.k + 1#5 ∧ ∃ x, t.txq = s.txq ++ [x]) ∧
      (t.st = .idle → t.k = 0#5 ∧ s.k.toNat = 24 ∧ ∃ x, t.txq = s.txq ++ [x])

/-- R22, R168, R172: the lifecycle: which ST can follow which, over any step that is not a reset. -/
def Obligations.LifecycleMoves : Prop :=
  ∀ s t : State, s.Inv → s.turns.head? ≠ some .hostReset → step s = .next t →
    (s.st = .uninit → t.st = .uninit ∨ t.st = .stream ∨ t.st = .fault) ∧
      (s.st = .idle → t.st = .idle ∨ t.st = .stream ∨ t.st = .fault) ∧
      (s.st = .stream → t.st = .stream ∨ t.st = .idle) ∧ (s.st = .fault → t.st = .fault)

/-! ### What reaches the strip -/

/-- R59, R143, R144, R146, R188: over a step that is not a reset, the words delivered, queued and still to be pushed gain
exactly the pass of the command accepted, behind all the others. -/
def Obligations.StepAppendsAcceptedPass : Prop :=
  ∀ s t : State, s.Inv → s.turns.head? ≠ some .hostReset → step s = .next t → t.promised = s.promised ++ s.stepPass

/-- R60, R151: in a run that starts at a reset, under every interleaving, the words delivered, queued and to come are the
concatenation of the passes of the accepted commands, in acceptance order, each of 25 words or none; a later reset
discards those not delivered. -/
def Obligations.WireIsConcatenationOfPasses : Prop :=
  (∀ (r t : State) (n : Nat), r.noReset = true → run n r.resetBlock = .next t →
    t.wire ++ t.txq ++ t.unsent = r.wire ++ passesOver n r.resetBlock ∧ t.resetBlock.promised = t.wire) ∧
    ∀ (i : Instr) (s : State), commandPass i s = [] ∨ (commandPass i s).length = 25

/-- R122, R123, R143, R150: after RENDER d is accepted, under every interleaving in which no reset and no other command
comes, once the pass has drained STRIP[Map(i)] is GLYPH[d][i] for every i, and WIRE has gained, after the words queued
before, exactly the 25 words GLYPH[d][Map(0)], …, GLYPH[d][Map(24)]. -/
def Obligations.RenderedFrameReachesStrip : Prop :=
  ∀ (s s' t : State) (d : BitVec 8) (g : Digit) (n : Nat), s.Inv → s.cmdReady = true → s.claimed = true →
    s.undisturbed = true → d.toNat = g.val → exec (.render d) s = .next s' → run n s' = .next t →
      t.st ≠ .stream → t.txq = [] →
        (∀ i : Slot, t.strip[indexMap i] = glyphWord s.cfg g i) ∧
          t.wire = s.wire ++ s.txq ++ (List.finRange 25).map (fun k => glyphWord s.cfg g (indexMap k))

/-- R115, R119, R120, R125: after CLEAR or a successful INIT is accepted, likewise, once the pass has drained every slot is
0 whatever STRIP held before (a rendered glyph included), and WIRE has gained 25 zero words: so a second CLEAR gives the
same STRIP and 25 more words on WIRE. -/
def Obligations.ClearedStripIsAllZero : Prop :=
  ∀ (s s' t : State) (i : Instr) (n : Nat), s.Inv → s.cmdReady = true → s.undisturbed = true →
    (i = .clear ∧ s.claimed = true ∨ i = .init ∧ s.claimed = false ∧ s.claimOk = true) → exec i s = .next s' →
      run n s' = .next t → t.st ≠ .stream → t.txq = [] →
        (∀ j : Slot, t.strip[j] = 0) ∧ t.wire = s.wire ++ s.txq ++ List.replicate 25 0

/-- R61, R185: BUSY = 0 and TXQ_EMPTY = 1 (bits 1 and 3 of `status`) mean that every word promised is on WIRE, and W = 0. -/
def Obligations.DoneMeansDelivered : Prop :=
  ∀ s : State, s.Inv → s.status.getLsbD 1 = false → s.status.getLsbD 3 = true → s.promised = s.wire ∧ s.w = 0#5

/-- R153: a quiescent state has ST in UNINIT, IDLE or FAULT and TXQ empty, and is final unless ST is FAULT. With TXQ_DEPTH
≥ 1 (R7). That it then stays as it is, with no turn listed, is the model's choice (assumption log entry 1). -/
def Obligations.QuiescentStates : Prop :=
  ∀ s : State, s.Inv → 1 ≤ s.cfg.txqDepth → s.quiescent = true →
    s.st ≠ .stream ∧ s.txq = [] ∧ (s.final = true ↔ s.st = .uninit ∨ s.st = .idle) ∧
      (s.turns = [] → step s = .next s)

/-- R149, R153: on a healthy channel a run in which the Host offers nothing more ends, after one step for each push and each
drain still due, quiescent with every promised word delivered. With no turn listed, the order of the steps is the
model's choice (assumption log entries 1 and 4). -/
def Obligations.HealthyRunDelivers : Prop :=
  ∀ s : State, s.Inv → 1 ≤ s.cfg.txqDepth → s.turns = [] → s.offers = [] → s.healthy = true →
    ∃ t, run (2 * s.unsent.length + s.txq.length) s = .next t ∧ t.quiescent = true ∧ t.wire = s.promised ∧
      t.st = (if s.st = .stream then .idle else s.st)

/-! ### Noninterference and the clock edge -/

/-- R51, R37: the pin, the line encoding and the colour layout change no step at the level of words. -/
def Obligations.LayoutDoesNotInterfere : Prop :=
  ∀ (s : State) (pin encoding layout : Nat),
    step (s.rebuilt pin encoding layout) =
      match step s with
      | .next t => .next (t.rebuilt pin encoding layout)
      | .fault f => .fault f
      | .refused r => .refused r

/-- R180, R192: a clock edge is one of the interleavings of the atomic steps, and one with `rst_n` = 0 is a reset. -/
def Obligations.EdgeIsAnInterleaving : Prop :=
  ∀ (s : State) (rstN delivers : Bool) (ts : List Turn),
    s.turns = edgeTurns rstN delivers s ++ ts →
      run (edgeTurns rstN delivers s).length s = edge rstN delivers (s.withTurns ts)
end

