-- ==== Sys2Proof/Laws/Decode.lean ====
section
/-! SUPPORT. The fields of a word as numbers, and that splitting and joining a word undo each other. -/

namespace Sys2Proof

theorem opField_toNat (w : CmdWord) : (opField w).toNat = w.toNat / 4096 := by
  have := w.isLt
  simp only [opField, BitVec.extractLsb'_toNat, Nat.shiftRight_eq_div_pow]
  omega

theorem rsvField_toNat (w : CmdWord) : (rsvField w).toNat = w.toNat / 256 % 16 := by
  simp only [rsvField, BitVec.extractLsb'_toNat, Nat.shiftRight_eq_div_pow]

theorem argField_toNat (w : CmdWord) : (argField w).toNat = w.toNat % 256 := by
  simp only [argField, BitVec.extractLsb'_toNat, Nat.shiftRight_eq_div_pow]
  omega

theorem joinFields_toNat (c : Cmd16) :
    (joinFields c).toNat = c.op.toNat * 4096 + c.rsv.toNat * 256 + c.arg.toNat := by
  rw [joinFields, BitVec.toNat_append, BitVec.toNat_append, ← Nat.shiftLeft_add_eq_or_of_lt c.rsv.isLt,
    ← Nat.shiftLeft_add_eq_or_of_lt c.arg.isLt, Nat.shiftLeft_eq, Nat.shiftLeft_eq]
  omega

theorem joinFields_splitWord (w : CmdWord) : joinFields (splitWord w) = w := by
  apply BitVec.eq_of_toNat_eq
  have := w.isLt
  rw [joinFields_toNat]
  simp only [splitWord, opField_toNat, rsvField_toNat, argField_toNat]
  omega

theorem splitWord_joinFields (c : Cmd16) : splitWord (joinFields c) = c := by
  have h1 := c.op.isLt
  have h2 := c.rsv.isLt
  have h3 := c.arg.isLt
  have e1 : opField (joinFields c) = c.op := by
    apply BitVec.eq_of_toNat_eq
    rw [opField_toNat, joinFields_toNat]
    omega
  have e2 : rsvField (joinFields c) = c.rsv := by
    apply BitVec.eq_of_toNat_eq
    rw [rsvField_toNat, joinFields_toNat]
    omega
  have e3 : argField (joinFields c) = c.arg := by
    apply BitVec.eq_of_toNat_eq
    rw [argField_toNat, joinFields_toNat]
    omega
  simp only [splitWord, e1, e2, e3]

/-- A word passes the checks exactly when no reason to reject it is found. -/
theorem Cmd16.reject_eq_none_iff (c : Cmd16) : c.reject = none ↔ c.wellFormed = true := by
  unfold Cmd16.reject Cmd16.wellFormed
  cases c.rsvZero <;> cases c.opDefined <;> cases c.argAllowed <;> simp

/-- The number of ARG put together with an operation of the table. -/
theorem encode_toNat (i : Instr) : (encode i).toNat = i.op.toNat * 4096 + i.arg.toNat := by
  rw [encode, joinFields_toNat]
  simp [Instr.fields]

end Sys2Proof
end

