-- ==== Sys2Proof/Laws/State.lean ====
section
/-! SUPPORT. What each named operation of Machine/Ops.lean does to each field of the state. -/

namespace Sys2Proof.Machine

/-! `raiseFault` -/

@[simp] theorem State.raiseFault_st (s : State) (c : FCode) : (s.raiseFault c).st = .fault := rfl
@[simp] theorem State.raiseFault_opk (s : State) (c : FCode) : (s.raiseFault c).opk = s.opk := rfl
@[simp] theorem State.raiseFault_dig (s : State) (c : FCode) : (s.raiseFault c).dig = s.dig := rfl
@[simp] theorem State.raiseFault_k (s : State) (c : FCode) : (s.raiseFault c).k = s.k := rfl
@[simp] theorem State.raiseFault_mact (s : State) (c : FCode) : (s.raiseFault c).mact = s.mact := rfl
@[simp] theorem State.raiseFault_claimed (s : State) (c : FCode) : (s.raiseFault c).claimed = s.claimed := rfl
@[simp] theorem State.raiseFault_fcode (s : State) (c : FCode) : (s.raiseFault c).fcode = c := rfl
@[simp] theorem State.raiseFault_txq (s : State) (c : FCode) : (s.raiseFault c).txq = s.txq := rfl
@[simp] theorem State.raiseFault_w (s : State) (c : FCode) : (s.raiseFault c).w = s.w := rfl
@[simp] theorem State.raiseFault_strip (s : State) (c : FCode) : (s.raiseFault c).strip = s.strip := rfl
@[simp] theorem State.raiseFault_wire (s : State) (c : FCode) : (s.raiseFault c).wire = s.wire := rfl
@[simp] theorem State.raiseFault_cfg (s : State) (c : FCode) : (s.raiseFault c).cfg = s.cfg := rfl
@[simp] theorem State.raiseFault_offers (s : State) (c : FCode) : (s.raiseFault c).offers = s.offers := rfl
@[simp] theorem State.raiseFault_claimOk (s : State) (c : FCode) : (s.raiseFault c).claimOk = s.claimOk := rfl
@[simp] theorem State.raiseFault_healthy (s : State) (c : FCode) : (s.raiseFault c).healthy = s.healthy := rfl
@[simp] theorem State.raiseFault_turns (s : State) (c : FCode) : (s.raiseFault c).turns = s.turns := rfl

/-! `resetBlock` -/

@[simp] theorem State.resetBlock_st (s : State) : (s.resetBlock).st = .uninit := rfl
@[simp] theorem State.resetBlock_opk (s : State) : (s.resetBlock).opk = .zero := rfl
@[simp] theorem State.resetBlock_dig (s : State) : (s.resetBlock).dig = 0#4 := rfl
@[simp] theorem State.resetBlock_k (s : State) : (s.resetBlock).k = 0#5 := rfl
@[simp] theorem State.resetBlock_mact (s : State) : (s.resetBlock).mact = false := rfl
@[simp] theorem State.resetBlock_claimed (s : State) : (s.resetBlock).claimed = false := rfl
@[simp] theorem State.resetBlock_fcode (s : State) : (s.resetBlock).fcode = .none := rfl
@[simp] theorem State.resetBlock_txq (s : State) : (s.resetBlock).txq = [] := rfl
@[simp] theorem State.resetBlock_w (s : State) : (s.resetBlock).w = 0#5 := rfl
@[simp] theorem State.resetBlock_strip (s : State) : (s.resetBlock).strip = s.strip := rfl
@[simp] theorem State.resetBlock_wire (s : State) : (s.resetBlock).wire = s.wire := rfl
@[simp] theorem State.resetBlock_cfg (s : State) : (s.resetBlock).cfg = s.cfg := rfl
@[simp] theorem State.resetBlock_offers (s : State) : (s.resetBlock).offers = s.offers := rfl
@[simp] theorem State.resetBlock_claimOk (s : State) : (s.resetBlock).claimOk = s.claimOk := rfl
@[simp] theorem State.resetBlock_healthy (s : State) : (s.resetBlock).healthy = s.healthy := rfl
@[simp] theorem State.resetBlock_turns (s : State) : (s.resetBlock).turns = s.turns := rfl

/-! `startPass` -/

@[simp] theorem State.startPass_st (s : State) (kind : Opk) (d : BitVec 4) : (s.startPass kind d).st = .stream := rfl
@[simp] theorem State.startPass_opk (s : State) (kind : Opk) (d : BitVec 4) : (s.startPass kind d).opk = kind := rfl
@[simp] theorem State.startPass_dig (s : State) (kind : Opk) (d : BitVec 4) : (s.startPass kind d).dig = d := rfl
@[simp] theorem State.startPass_k (s : State) (kind : Opk) (d : BitVec 4) : (s.startPass kind d).k = 0#5 := rfl
@[simp] theorem State.startPass_mact (s : State) (kind : Opk) (d : BitVec 4) : (s.startPass kind d).mact = s.mact := rfl
@[simp] theorem State.startPass_claimed (s : State) (kind : Opk) (d : BitVec 4) : (s.startPass kind d).claimed = s.claimed := rfl
@[simp] theorem State.startPass_fcode (s : State) (kind : Opk) (d : BitVec 4) : (s.startPass kind d).fcode = s.fcode := rfl
@[simp] theorem State.startPass_txq (s : State) (kind : Opk) (d : BitVec 4) : (s.startPass kind d).txq = s.txq := rfl
@[simp] theorem State.startPass_w (s : State) (kind : Opk) (d : BitVec 4) : (s.startPass kind d).w = s.w := rfl
@[simp] theorem State.startPass_strip (s : State) (kind : Opk) (d : BitVec 4) : (s.startPass kind d).strip = s.strip := rfl
@[simp] theorem State.startPass_wire (s : State) (kind : Opk) (d : BitVec 4) : (s.startPass kind d).wire = s.wire := rfl
@[simp] theorem State.startPass_cfg (s : State) (kind : Opk) (d : BitVec 4) : (s.startPass kind d).cfg = s.cfg := rfl
@[simp] theorem State.startPass_offers (s : State) (kind : Opk) (d : BitVec 4) : (s.startPass kind d).offers = s.offers := rfl
@[simp] theorem State.startPass_claimOk (s : State) (kind : Opk) (d : BitVec 4) : (s.startPass kind d).claimOk = s.claimOk := rfl
@[simp] theorem State.startPass_healthy (s : State) (kind : Opk) (d : BitVec 4) : (s.startPass kind d).healthy = s.healthy := rfl
@[simp] theorem State.startPass_turns (s : State) (kind : Opk) (d : BitVec 4) : (s.startPass kind d).turns = s.turns := rfl

/-! `setMact` -/

@[simp] theorem State.setMact_st (s : State) (b : Bool) : (s.setMact b).st = s.st := rfl
@[simp] theorem State.setMact_opk (s : State) (b : Bool) : (s.setMact b).opk = s.opk := rfl
@[simp] theorem State.setMact_dig (s : State) (b : Bool) : (s.setMact b).dig = s.dig := rfl
@[simp] theorem State.setMact_k (s : State) (b : Bool) : (s.setMact b).k = s.k := rfl
@[simp] theorem State.setMact_mact (s : State) (b : Bool) : (s.setMact b).mact = b := rfl
@[simp] theorem State.setMact_claimed (s : State) (b : Bool) : (s.setMact b).claimed = s.claimed := rfl
@[simp] theorem State.setMact_fcode (s : State) (b : Bool) : (s.setMact b).fcode = s.fcode := rfl
@[simp] theorem State.setMact_txq (s : State) (b : Bool) : (s.setMact b).txq = s.txq := rfl
@[simp] theorem State.setMact_w (s : State) (b : Bool) : (s.setMact b).w = s.w := rfl
@[simp] theorem State.setMact_strip (s : State) (b : Bool) : (s.setMact b).strip = s.strip := rfl
@[simp] theorem State.setMact_wire (s : State) (b : Bool) : (s.setMact b).wire = s.wire := rfl
@[simp] theorem State.setMact_cfg (s : State) (b : Bool) : (s.setMact b).cfg = s.cfg := rfl
@[simp] theorem State.setMact_offers (s : State) (b : Bool) : (s.setMact b).offers = s.offers := rfl
@[simp] theorem State.setMact_claimOk (s : State) (b : Bool) : (s.setMact b).claimOk = s.claimOk := rfl
@[simp] theorem State.setMact_healthy (s : State) (b : Bool) : (s.setMact b).healthy = s.healthy := rfl
@[simp] theorem State.setMact_turns (s : State) (b : Bool) : (s.setMact b).turns = s.turns := rfl

/-! `claim` -/

@[simp] theorem State.claim_st (s : State) : (s.claim).st = s.st := rfl
@[simp] theorem State.claim_opk (s : State) : (s.claim).opk = s.opk := rfl
@[simp] theorem State.claim_dig (s : State) : (s.claim).dig = s.dig := rfl
@[simp] theorem State.claim_k (s : State) : (s.claim).k = s.k := rfl
@[simp] theorem State.claim_mact (s : State) : (s.claim).mact = s.mact := rfl
@[simp] theorem State.claim_claimed (s : State) : (s.claim).claimed = true := rfl
@[simp] theorem State.claim_fcode (s : State) : (s.claim).fcode = s.fcode := rfl
@[simp] theorem State.claim_txq (s : State) : (s.claim).txq = s.txq := rfl
@[simp] theorem State.claim_w (s : State) : (s.claim).w = s.w := rfl
@[simp] theorem State.claim_strip (s : State) : (s.claim).strip = s.strip := rfl
@[simp] theorem State.claim_wire (s : State) : (s.claim).wire = s.wire := rfl
@[simp] theorem State.claim_cfg (s : State) : (s.claim).cfg = s.cfg := rfl
@[simp] theorem State.claim_offers (s : State) : (s.claim).offers = s.offers := rfl
@[simp] theorem State.claim_claimOk (s : State) : (s.claim).claimOk = s.claimOk := rfl
@[simp] theorem State.claim_healthy (s : State) : (s.claim).healthy = s.healthy := rfl
@[simp] theorem State.claim_turns (s : State) : (s.claim).turns = s.turns := rfl

/-! `beginClear` -/

@[simp] theorem State.beginClear_st (s : State) : (s.beginClear).st = .stream := rfl
@[simp] theorem State.beginClear_opk (s : State) : (s.beginClear).opk = .zero := rfl
@[simp] theorem State.beginClear_dig (s : State) : (s.beginClear).dig = 0#4 := rfl
@[simp] theorem State.beginClear_k (s : State) : (s.beginClear).k = 0#5 := rfl
@[simp] theorem State.beginClear_mact (s : State) : (s.beginClear).mact = false := rfl
@[simp] theorem State.beginClear_claimed (s : State) : (s.beginClear).claimed = s.claimed := rfl
@[simp] theorem State.beginClear_fcode (s : State) : (s.beginClear).fcode = s.fcode := rfl
@[simp] theorem State.beginClear_txq (s : State) : (s.beginClear).txq = s.txq := rfl
@[simp] theorem State.beginClear_w (s : State) : (s.beginClear).w = s.w := rfl
@[simp] theorem State.beginClear_strip (s : State) : (s.beginClear).strip = s.strip := rfl
@[simp] theorem State.beginClear_wire (s : State) : (s.beginClear).wire = s.wire := rfl
@[simp] theorem State.beginClear_cfg (s : State) : (s.beginClear).cfg = s.cfg := rfl
@[simp] theorem State.beginClear_offers (s : State) : (s.beginClear).offers = s.offers := rfl
@[simp] theorem State.beginClear_claimOk (s : State) : (s.beginClear).claimOk = s.claimOk := rfl
@[simp] theorem State.beginClear_healthy (s : State) : (s.beginClear).healthy = s.healthy := rfl
@[simp] theorem State.beginClear_turns (s : State) : (s.beginClear).turns = s.turns := rfl

/-! `beginRender` -/

@[simp] theorem State.beginRender_st (s : State) (d : BitVec 4) : (s.beginRender d).st = .stream := rfl
@[simp] theorem State.beginRender_opk (s : State) (d : BitVec 4) : (s.beginRender d).opk = .glyph := rfl
@[simp] theorem State.beginRender_dig (s : State) (d : BitVec 4) : (s.beginRender d).dig = d := rfl
@[simp] theorem State.beginRender_k (s : State) (d : BitVec 4) : (s.beginRender d).k = 0#5 := rfl
@[simp] theorem State.beginRender_mact (s : State) (d : BitVec 4) : (s.beginRender d).mact = true := rfl
@[simp] theorem State.beginRender_claimed (s : State) (d : BitVec 4) : (s.beginRender d).claimed = s.claimed := rfl
@[simp] theorem State.beginRender_fcode (s : State) (d : BitVec 4) : (s.beginRender d).fcode = s.fcode := rfl
@[simp] theorem State.beginRender_txq (s : State) (d : BitVec 4) : (s.beginRender d).txq = s.txq := rfl
@[simp] theorem State.beginRender_w (s : State) (d : BitVec 4) : (s.beginRender d).w = s.w := rfl
@[simp] theorem State.beginRender_strip (s : State) (d : BitVec 4) : (s.beginRender d).strip = s.strip := rfl
@[simp] theorem State.beginRender_wire (s : State) (d : BitVec 4) : (s.beginRender d).wire = s.wire := rfl
@[simp] theorem State.beginRender_cfg (s : State) (d : BitVec 4) : (s.beginRender d).cfg = s.cfg := rfl
@[simp] theorem State.beginRender_offers (s : State) (d : BitVec 4) : (s.beginRender d).offers = s.offers := rfl
@[simp] theorem State.beginRender_claimOk (s : State) (d : BitVec 4) : (s.beginRender d).claimOk = s.claimOk := rfl
@[simp] theorem State.beginRender_healthy (s : State) (d : BitVec 4) : (s.beginRender d).healthy = s.healthy := rfl
@[simp] theorem State.beginRender_turns (s : State) (d : BitVec 4) : (s.beginRender d).turns = s.turns := rfl

/-! `txPush` -/

@[simp] theorem State.txPush_st (s : State) (x : Color) : (s.txPush x).st = s.st := rfl
@[simp] theorem State.txPush_opk (s : State) (x : Color) : (s.txPush x).opk = s.opk := rfl
@[simp] theorem State.txPush_dig (s : State) (x : Color) : (s.txPush x).dig = s.dig := rfl
@[simp] theorem State.txPush_k (s : State) (x : Color) : (s.txPush x).k = s.k := rfl
@[simp] theorem State.txPush_mact (s : State) (x : Color) : (s.txPush x).mact = s.mact := rfl
@[simp] theorem State.txPush_claimed (s : State) (x : Color) : (s.txPush x).claimed = s.claimed := rfl
@[simp] theorem State.txPush_fcode (s : State) (x : Color) : (s.txPush x).fcode = s.fcode := rfl
@[simp] theorem State.txPush_txq (s : State) (x : Color) : (s.txPush x).txq = s.txq ++ [x] := rfl
@[simp] theorem State.txPush_w (s : State) (x : Color) : (s.txPush x).w = s.w := rfl
@[simp] theorem State.txPush_strip (s : State) (x : Color) : (s.txPush x).strip = s.strip := rfl
@[simp] theorem State.txPush_wire (s : State) (x : Color) : (s.txPush x).wire = s.wire := rfl
@[simp] theorem State.txPush_cfg (s : State) (x : Color) : (s.txPush x).cfg = s.cfg := rfl
@[simp] theorem State.txPush_offers (s : State) (x : Color) : (s.txPush x).offers = s.offers := rfl
@[simp] theorem State.txPush_claimOk (s : State) (x : Color) : (s.txPush x).claimOk = s.claimOk := rfl
@[simp] theorem State.txPush_healthy (s : State) (x : Color) : (s.txPush x).healthy = s.healthy := rfl
@[simp] theorem State.txPush_turns (s : State) (x : Color) : (s.txPush x).turns = s.turns := rfl

/-! `advancePass` -/

@[simp] theorem State.advancePass_st (s : State) : (s.advancePass).st = if s.k.toNat = 24 then .idle else s.st := rfl
@[simp] theorem State.advancePass_opk (s : State) : (s.advancePass).opk = s.opk := rfl
@[simp] theorem State.advancePass_dig (s : State) : (s.advancePass).dig = s.dig := rfl
@[simp] theorem State.advancePass_k (s : State) : (s.advancePass).k = if s.k.toNat = 24 then 0#5 else s.k + 1#5 := rfl
@[simp] theorem State.advancePass_mact (s : State) : (s.advancePass).mact = s.mact := rfl
@[simp] theorem State.advancePass_claimed (s : State) : (s.advancePass).claimed = s.claimed := rfl
@[simp] theorem State.advancePass_fcode (s : State) : (s.advancePass).fcode = s.fcode := rfl
@[simp] theorem State.advancePass_txq (s : State) : (s.advancePass).txq = s.txq := rfl
@[simp] theorem State.advancePass_w (s : State) : (s.advancePass).w = s.w := rfl
@[simp] theorem State.advancePass_strip (s : State) : (s.advancePass).strip = s.strip := rfl
@[simp] theorem State.advancePass_wire (s : State) : (s.advancePass).wire = s.wire := rfl
@[simp] theorem State.advancePass_cfg (s : State) : (s.advancePass).cfg = s.cfg := rfl
@[simp] theorem State.advancePass_offers (s : State) : (s.advancePass).offers = s.offers := rfl
@[simp] theorem State.advancePass_claimOk (s : State) : (s.advancePass).claimOk = s.claimOk := rfl
@[simp] theorem State.advancePass_healthy (s : State) : (s.advancePass).healthy = s.healthy := rfl
@[simp] theorem State.advancePass_turns (s : State) : (s.advancePass).turns = s.turns := rfl

/-! `txPop` -/

@[simp] theorem State.txPop_st (s : State) : (s.txPop).st = s.st := rfl
@[simp] theorem State.txPop_opk (s : State) : (s.txPop).opk = s.opk := rfl
@[simp] theorem State.txPop_dig (s : State) : (s.txPop).dig = s.dig := rfl
@[simp] theorem State.txPop_k (s : State) : (s.txPop).k = s.k := rfl
@[simp] theorem State.txPop_mact (s : State) : (s.txPop).mact = s.mact := rfl
@[simp] theorem State.txPop_claimed (s : State) : (s.txPop).claimed = s.claimed := rfl
@[simp] theorem State.txPop_fcode (s : State) : (s.txPop).fcode = s.fcode := rfl
@[simp] theorem State.txPop_txq (s : State) : (s.txPop).txq = s.txq.tail := rfl
@[simp] theorem State.txPop_w (s : State) : (s.txPop).w = s.w := rfl
@[simp] theorem State.txPop_strip (s : State) : (s.txPop).strip = s.strip := rfl
@[simp] theorem State.txPop_wire (s : State) : (s.txPop).wire = s.wire := rfl
@[simp] theorem State.txPop_cfg (s : State) : (s.txPop).cfg = s.cfg := rfl
@[simp] theorem State.txPop_offers (s : State) : (s.txPop).offers = s.offers := rfl
@[simp] theorem State.txPop_claimOk (s : State) : (s.txPop).claimOk = s.claimOk := rfl
@[simp] theorem State.txPop_healthy (s : State) : (s.txPop).healthy = s.healthy := rfl
@[simp] theorem State.txPop_turns (s : State) : (s.txPop).turns = s.turns := rfl

/-! `stripWrite` -/

@[simp] theorem State.stripWrite_st (s : State) (i : Slot) (x : Color) : (s.stripWrite i x).st = s.st := rfl
@[simp] theorem State.stripWrite_opk (s : State) (i : Slot) (x : Color) : (s.stripWrite i x).opk = s.opk := rfl
@[simp] theorem State.stripWrite_dig (s : State) (i : Slot) (x : Color) : (s.stripWrite i x).dig = s.dig := rfl
@[simp] theorem State.stripWrite_k (s : State) (i : Slot) (x : Color) : (s.stripWrite i x).k = s.k := rfl
@[simp] theorem State.stripWrite_mact (s : State) (i : Slot) (x : Color) : (s.stripWrite i x).mact = s.mact := rfl
@[simp] theorem State.stripWrite_claimed (s : State) (i : Slot) (x : Color) : (s.stripWrite i x).claimed = s.claimed := rfl
@[simp] theorem State.stripWrite_fcode (s : State) (i : Slot) (x : Color) : (s.stripWrite i x).fcode = s.fcode := rfl
@[simp] theorem State.stripWrite_txq (s : State) (i : Slot) (x : Color) : (s.stripWrite i x).txq = s.txq := rfl
@[simp] theorem State.stripWrite_w (s : State) (i : Slot) (x : Color) : (s.stripWrite i x).w = BitVec.ofNat 5 ((i.val + 1) % 25) := rfl
@[simp] theorem State.stripWrite_strip (s : State) (i : Slot) (x : Color) : (s.stripWrite i x).strip = s.strip.set i.val x := rfl
@[simp] theorem State.stripWrite_wire (s : State) (i : Slot) (x : Color) : (s.stripWrite i x).wire = s.wire ++ [x] := rfl
@[simp] theorem State.stripWrite_cfg (s : State) (i : Slot) (x : Color) : (s.stripWrite i x).cfg = s.cfg := rfl
@[simp] theorem State.stripWrite_offers (s : State) (i : Slot) (x : Color) : (s.stripWrite i x).offers = s.offers := rfl
@[simp] theorem State.stripWrite_claimOk (s : State) (i : Slot) (x : Color) : (s.stripWrite i x).claimOk = s.claimOk := rfl
@[simp] theorem State.stripWrite_healthy (s : State) (i : Slot) (x : Color) : (s.stripWrite i x).healthy = s.healthy := rfl
@[simp] theorem State.stripWrite_turns (s : State) (i : Slot) (x : Color) : (s.stripWrite i x).turns = s.turns := rfl

/-! `withTurns` -/

@[simp] theorem State.withTurns_st (s : State) (ts : List Turn) : (s.withTurns ts).st = s.st := rfl
@[simp] theorem State.withTurns_opk (s : State) (ts : List Turn) : (s.withTurns ts).opk = s.opk := rfl
@[simp] theorem State.withTurns_dig (s : State) (ts : List Turn) : (s.withTurns ts).dig = s.dig := rfl
@[simp] theorem State.withTurns_k (s : State) (ts : List Turn) : (s.withTurns ts).k = s.k := rfl
@[simp] theorem State.withTurns_mact (s : State) (ts : List Turn) : (s.withTurns ts).mact = s.mact := rfl
@[simp] theorem State.withTurns_claimed (s : State) (ts : List Turn) : (s.withTurns ts).claimed = s.claimed := rfl
@[simp] theorem State.withTurns_fcode (s : State) (ts : List Turn) : (s.withTurns ts).fcode = s.fcode := rfl
@[simp] theorem State.withTurns_txq (s : State) (ts : List Turn) : (s.withTurns ts).txq = s.txq := rfl
@[simp] theorem State.withTurns_w (s : State) (ts : List Turn) : (s.withTurns ts).w = s.w := rfl
@[simp] theorem State.withTurns_strip (s : State) (ts : List Turn) : (s.withTurns ts).strip = s.strip := rfl
@[simp] theorem State.withTurns_wire (s : State) (ts : List Turn) : (s.withTurns ts).wire = s.wire := rfl
@[simp] theorem State.withTurns_cfg (s : State) (ts : List Turn) : (s.withTurns ts).cfg = s.cfg := rfl
@[simp] theorem State.withTurns_offers (s : State) (ts : List Turn) : (s.withTurns ts).offers = s.offers := rfl
@[simp] theorem State.withTurns_claimOk (s : State) (ts : List Turn) : (s.withTurns ts).claimOk = s.claimOk := rfl
@[simp] theorem State.withTurns_healthy (s : State) (ts : List Turn) : (s.withTurns ts).healthy = s.healthy := rfl
@[simp] theorem State.withTurns_turns (s : State) (ts : List Turn) : (s.withTurns ts).turns = ts := rfl

/-! `withOffers` -/

@[simp] theorem State.withOffers_st (s : State) (ws : List CmdWord) : (s.withOffers ws).st = s.st := rfl
@[simp] theorem State.withOffers_opk (s : State) (ws : List CmdWord) : (s.withOffers ws).opk = s.opk := rfl
@[simp] theorem State.withOffers_dig (s : State) (ws : List CmdWord) : (s.withOffers ws).dig = s.dig := rfl
@[simp] theorem State.withOffers_k (s : State) (ws : List CmdWord) : (s.withOffers ws).k = s.k := rfl
@[simp] theorem State.withOffers_mact (s : State) (ws : List CmdWord) : (s.withOffers ws).mact = s.mact := rfl
@[simp] theorem State.withOffers_claimed (s : State) (ws : List CmdWord) : (s.withOffers ws).claimed = s.claimed := rfl
@[simp] theorem State.withOffers_fcode (s : State) (ws : List CmdWord) : (s.withOffers ws).fcode = s.fcode := rfl
@[simp] theorem State.withOffers_txq (s : State) (ws : List CmdWord) : (s.withOffers ws).txq = s.txq := rfl
@[simp] theorem State.withOffers_w (s : State) (ws : List CmdWord) : (s.withOffers ws).w = s.w := rfl
@[simp] theorem State.withOffers_strip (s : State) (ws : List CmdWord) : (s.withOffers ws).strip = s.strip := rfl
@[simp] theorem State.withOffers_wire (s : State) (ws : List CmdWord) : (s.withOffers ws).wire = s.wire := rfl
@[simp] theorem State.withOffers_cfg (s : State) (ws : List CmdWord) : (s.withOffers ws).cfg = s.cfg := rfl
@[simp] theorem State.withOffers_offers (s : State) (ws : List CmdWord) : (s.withOffers ws).offers = ws := rfl
@[simp] theorem State.withOffers_claimOk (s : State) (ws : List CmdWord) : (s.withOffers ws).claimOk = s.claimOk := rfl
@[simp] theorem State.withOffers_healthy (s : State) (ws : List CmdWord) : (s.withOffers ws).healthy = s.healthy := rfl
@[simp] theorem State.withOffers_turns (s : State) (ws : List CmdWord) : (s.withOffers ws).turns = s.turns := rfl

/-! `withClaimOk` -/

@[simp] theorem State.withClaimOk_st (s : State) (b : Bool) : (s.withClaimOk b).st = s.st := rfl
@[simp] theorem State.withClaimOk_opk (s : State) (b : Bool) : (s.withClaimOk b).opk = s.opk := rfl
@[simp] theorem State.withClaimOk_dig (s : State) (b : Bool) : (s.withClaimOk b).dig = s.dig := rfl
@[simp] theorem State.withClaimOk_k (s : State) (b : Bool) : (s.withClaimOk b).k = s.k := rfl
@[simp] theorem State.withClaimOk_mact (s : State) (b : Bool) : (s.withClaimOk b).mact = s.mact := rfl
@[simp] theorem State.withClaimOk_claimed (s : State) (b : Bool) : (s.withClaimOk b).claimed = s.claimed := rfl
@[simp] theorem State.withClaimOk_fcode (s : State) (b : Bool) : (s.withClaimOk b).fcode = s.fcode := rfl
@[simp] theorem State.withClaimOk_txq (s : State) (b : Bool) : (s.withClaimOk b).txq = s.txq := rfl
@[simp] theorem State.withClaimOk_w (s : State) (b : Bool) : (s.withClaimOk b).w = s.w := rfl
@[simp] theorem State.withClaimOk_strip (s : State) (b : Bool) : (s.withClaimOk b).strip = s.strip := rfl
@[simp] theorem State.withClaimOk_wire (s : State) (b : Bool) : (s.withClaimOk b).wire = s.wire := rfl
@[simp] theorem State.withClaimOk_cfg (s : State) (b : Bool) : (s.withClaimOk b).cfg = s.cfg := rfl
@[simp] theorem State.withClaimOk_offers (s : State) (b : Bool) : (s.withClaimOk b).offers = s.offers := rfl
@[simp] theorem State.withClaimOk_claimOk (s : State) (b : Bool) : (s.withClaimOk b).claimOk = b := rfl
@[simp] theorem State.withClaimOk_healthy (s : State) (b : Bool) : (s.withClaimOk b).healthy = s.healthy := rfl
@[simp] theorem State.withClaimOk_turns (s : State) (b : Bool) : (s.withClaimOk b).turns = s.turns := rfl

end Sys2Proof.Machine
end

