-- ==== Sys2Proof/Laws/Ops.lean ====
section
/-! SUPPORT. For each shared operation, once, everything it can do. -/

namespace Sys2Proof.Machine

/-! ### Outputs -/

theorem State.cmdReady_iff (s : State) : s.cmdReady = true ↔ s.st = .uninit ∨ s.st = .idle := by
  unfold State.cmdReady
  cases s.st <;> simp

theorem State.cmdReady_eq_false_iff (s : State) : s.cmdReady = false ↔ s.st = .stream ∨ s.st = .fault := by
  unfold State.cmdReady
  cases s.st <;> simp

theorem State.pushEnabled_iff (s : State) :
    s.pushEnabled = true ↔ s.st = .stream ∧ s.txq.length < s.cfg.txqDepth := by
  simp [State.pushEnabled, State.busy]

theorem State.drainEnabled_iff (s : State) : s.drainEnabled = true ↔ s.txq ≠ [] := by
  simp [State.drainEnabled, State.txqEmpty]

/-- Every field of the packed status word (10_state.md R31). -/
theorem packStatus_fields (c : BitVec 3) (faulted full empty mact busy claimed : Bool) :
    (packStatus c faulted full empty mact busy claimed).getLsbD 0 = claimed ∧
      (packStatus c faulted full empty mact busy claimed).getLsbD 1 = busy ∧
      (packStatus c faulted full empty mact busy claimed).getLsbD 2 = mact ∧
      (packStatus c faulted full empty mact busy claimed).getLsbD 3 = empty ∧
      (packStatus c faulted full empty mact busy claimed).getLsbD 4 = full ∧
      (packStatus c faulted full empty mact busy claimed).getLsbD 5 = faulted ∧
      (packStatus c faulted full empty mact busy claimed).extractLsb' 6 2 = 0#2 ∧
      (packStatus c faulted full empty mact busy claimed).extractLsb' 8 3 = c ∧
      (packStatus c faulted full empty mact busy claimed).extractLsb' 11 5 = 0#5 := by
  revert c faulted full empty mact busy claimed
  decide

/-! ### Operands -/

theorem renderDigit_of_le {d : BitVec 8} (h : d.toNat ≤ 9) : renderDigit d = some (BitVec.ofNat 4 d.toNat) := by
  simp [renderDigit, h]

theorem renderDigit_of_gt {d : BitVec 8} (h : 9 < d.toNat) : renderDigit d = none := by
  simp [renderDigit, h]

theorem renderDigit_le {d : BitVec 8} {n : BitVec 4} (h : renderDigit d = some n) :
    n.toNat = d.toNat ∧ d.toNat ≤ 9 := by
  unfold renderDigit at h
  split at h
  · cases h
    refine ⟨?_, by assumption⟩
    simp only [BitVec.toNat_ofNat]
    omega
  · cases h

theorem charDigit_eq_some {c : BitVec 8} {n : BitVec 4} (h : charDigit c = some n) :
    (0x30 ≤ c.toNat ∧ c.toNat ≤ 0x39) ∧ n.toNat = c.toNat - 0x30 := by
  unfold charDigit isDigitChar at h
  split at h
  · rename_i hc
    simp only [Bool.and_eq_true, decide_eq_true_eq] at hc
    cases h
    refine ⟨hc, ?_⟩
    simp only [BitVec.toNat_ofNat]
    omega
  · cases h

theorem charDigit_eq_none {c : BitVec 8} (h : charDigit c = none) : ¬(0x30 ≤ c.toNat ∧ c.toNat ≤ 0x39) := by
  unfold charDigit isDigitChar at h
  split at h
  · cases h
  · rename_i hc
    simpa using hc

theorem slotOf_of_lt {v : BitVec 5} (h : v.toNat < 25) : slotOf v = some ⟨v.toNat, h⟩ := by
  simp [slotOf, h]

theorem slotOf_eq_some {v : BitVec 5} {i : Slot} (h : slotOf v = some i) : v.toNat = i.val := by
  unfold slotOf at h
  split at h
  · cases h; rfl
  · cases h

theorem digitOf_of_lt {v : BitVec 4} (h : v.toNat < 10) : digitOf v = some ⟨v.toNat, h⟩ := by
  simp [digitOf, h]

theorem digitOf_eq_some {v : BitVec 4} {d : Digit} (h : digitOf v = some d) : v.toNat = d.val := by
  unfold digitOf at h
  split at h
  · cases h; rfl
  · cases h

/-! ### Commands -/

/-- What executing a command can do: nothing, raise a fault, or start a pass. -/
inductive ExecEffect (i : Instr) (s : State) : State → Prop
  /-- NOP, a waiting command, or a CHAR that has nothing to clear. -/
  | none : ExecEffect i s s
  /-- A fault, precise. -/
  | fault (c : FCode) (ready : s.cmdReady = true) (code : c ≠ .none) : ExecEffect i s (s.raiseFault c)
  /-- A successful INIT. -/
  | init (ready : s.cmdReady = true) (isInit : i = .init) (fresh : s.claimed = false) (ok : s.claimOk = true) :
      ExecEffect i s s.claim.beginClear
  /-- CLEAR, or a CHAR that clears. -/
  | clear (ready : s.cmdReady = true) (notNop : i ≠ .nop) (claimed : s.claimed = true) : ExecEffect i s s.beginClear
  /-- RENDER, or a CHAR that renders. -/
  | render (n : BitVec 4) (ready : s.cmdReady = true) (notNop : i ≠ .nop) (claimed : s.claimed = true)
      (digit : n.toNat ≤ 9) : ExecEffect i s (s.beginRender n)

theorem whenReady_next (s : State) (f : State → State) :
    whenReady s f = .next (if s.cmdReady then f s else s) := rfl

/-- Every command answers a next state, and its effect is one of five. -/
theorem exec_effect (i : Instr) (s : State) : ∃ t, exec i s = .next t ∧ ExecEffect i s t := by
  by_cases hr : s.cmdReady = true
  · cases i with
    | nop => exact ⟨s, by simp [exec, execNop, whenReady], .none⟩
    | init =>
      by_cases hc : s.claimed = true
      · exact ⟨_, by simp [exec, execInit, whenReady, hr, hc], .fault .reinit hr (by simp)⟩
      · by_cases hk : s.claimOk = true
        · exact ⟨_, by simp [exec, execInit, whenReady, hr, hc, hk], .init hr rfl (by simpa using hc) hk⟩
        · exact ⟨_, by simp [exec, execInit, whenReady, hr, hc, hk], .fault .claimFail hr (by simp)⟩
    | clear =>
      by_cases hc : s.claimed = true
      · exact ⟨_, by simp [exec, execClear, whenReady, whenClaimed, hr, hc], .clear hr (by simp) hc⟩
      · exact ⟨_, by simp [exec, execClear, whenReady, whenClaimed, hr, hc], .fault .notInit hr (by simp)⟩
    | render d =>
      by_cases hc : s.claimed = true
      · cases hd : renderDigit d with
        | none =>
          exact ⟨_, by simp [exec, execRender, whenReady, whenClaimed, hr, hc, hd], .fault .badDigit hr (by simp)⟩
        | some n =>
          have := renderDigit_le hd
          exact ⟨_, by simp [exec, execRender, whenReady, whenClaimed, hr, hc, hd],
            .render n hr (by simp) hc (by omega)⟩
      · exact ⟨_, by simp [exec, execRender, whenReady, whenClaimed, hr, hc], .fault .notInit hr (by simp)⟩
    | char c =>
      by_cases hc : s.claimed = true
      · cases hd : charDigit c with
        | none =>
          by_cases hm : s.mact = true
          · exact ⟨_, by simp [exec, execChar, whenReady, whenClaimed, hr, hc, hd, hm], .clear hr (by simp) hc⟩
          · exact ⟨s, by simp [exec, execChar, whenReady, whenClaimed, hr, hc, hd, hm], .none⟩
        | some n =>
          have := charDigit_eq_some hd
          exact ⟨_, by simp [exec, execChar, whenReady, whenClaimed, hr, hc, hd],
            .render n hr (by simp) hc (by omega)⟩
      · exact ⟨_, by simp [exec, execChar, whenReady, whenClaimed, hr, hc], .fault .notInit hr (by simp)⟩
  · refine ⟨s, ?_, .none⟩
    cases i <;> simp [exec, execNop, execInit, execClear, execRender, execChar, whenReady, hr]

/-! ### The accept step -/

/-- What the accept step can do. -/
inductive AcceptEffect (s : State) : State → Prop
  /-- Nothing is offered, or the block is not ready: the offer waits. -/
  | none (idle : s.offers = [] ∨ s.cmdReady = false) : AcceptEffect s s
  /-- An Illegal word. -/
  | illegal (w : CmdWord) (rest : List CmdWord) (r : Reject) (ready : s.cmdReady = true) (offer : s.offers = w :: rest)
      (rejected : decode w = .error r) : AcceptEffect s ((s.withOffers rest).raiseFault .illegalCmd)
  /-- A command. -/
  | command (w : CmdWord) (rest : List CmdWord) (i : Instr) (t : State) (ready : s.cmdReady = true)
      (offer : s.offers = w :: rest) (decoded : decode w = .ok i) (effect : ExecEffect i (s.withOffers rest) t)
      (runs : exec i (s.withOffers rest) = .next t) : AcceptEffect s t

theorem State.withOffers_cmdReady (s : State) (ws : List CmdWord) : (s.withOffers ws).cmdReady = s.cmdReady := rfl

theorem State.withTurns_cmdReady (s : State) (ts : List Turn) : (s.withTurns ts).cmdReady = s.cmdReady := rfl

theorem accept_effect (s : State) : ∃ t, accept s = .next t ∧ AcceptEffect s t := by
  unfold accept
  split
  · rename_i h
    exact ⟨s, rfl, .none (.inl h)⟩
  · rename_i w rest h
    by_cases hr : s.cmdReady = true
    · simp only [hr, if_true, acceptWord]
      cases hd : decode w with
      | ok i =>
        obtain ⟨t, ht, he⟩ := exec_effect i (s.withOffers rest)
        exact ⟨t, ht, .command w rest i t hr h hd he ht⟩
      | error r =>
        refine ⟨_, ?_, .illegal w rest r hr h hd⟩
        simp [whenReady, State.withOffers_cmdReady, hr]
    · refine ⟨s, by simp [hr], .none (.inr (by simpa using hr))⟩

/-! ### Push and drain -/

theorem push_held {s : State} (h : s.pushEnabled = false) : push s = .next s := by
  simp [push, h]

theorem push_next {s : State} {x : Color} (h : s.pushEnabled = true) (hx : s.nextWord = .ok x) :
    push s = .next (s.txPush x).advancePass := by
  simp [push, h, hx]

/-- The word of a push, when the counter and the digit are in range. -/
theorem State.nextWord_zero {s : State} (hz : s.opk = .zero) (hk : s.k.toNat ≤ 24) : s.nextWord = .ok 0 := by
  have hk' : s.k.toNat < 25 := by omega
  unfold State.nextWord
  rw [slotOf_of_lt hk', hz]
  rfl

theorem State.nextWord_glyph {s : State} {k : Slot} {d : Digit} (hg : s.opk = .glyph) (hk : s.k.toNat = k.val)
    (hd : s.dig.toNat = d.val) : s.nextWord = .ok (glyphWord s.cfg d (indexMap k)) := by
  have hk' : s.k.toNat < 25 := by omega
  have hd' : s.dig.toNat < 10 := by omega
  have ek : (⟨s.k.toNat, hk'⟩ : Slot) = k := Fin.ext hk
  have ed : (⟨s.dig.toNat, hd'⟩ : Digit) = d := Fin.ext hd
  unfold State.nextWord
  rw [slotOf_of_lt hk', hg, digitOf_of_lt hd', ek, ed]
  rfl

/-- A push answers a next state only by holding or by appending the next word. -/
theorem push_cases {s t : State} (h : push s = .next t) :
    (s.pushEnabled = false ∧ t = s) ∨
      ∃ x, s.pushEnabled = true ∧ s.nextWord = .ok x ∧ t = (s.txPush x).advancePass := by
  unfold push at h
  split at h
  · rename_i hp
    split at h
    · rename_i x hx
      cases h
      exact .inr ⟨x, hp, hx, rfl⟩
    · cases h
  · rename_i hp
    cases h
    exact .inl ⟨by simpa using hp, rfl⟩

theorem drain_empty {s : State} (h : s.txq = []) : drain s = .next s := by
  simp [drain, h]

theorem drain_next {s : State} {x : Color} {rest : List Color} {i : Slot} (h : s.txq = x :: rest)
    (hw : s.w.toNat = i.val) : drain s = .next (s.txPop.stripWrite i x) := by
  have hw' : s.w.toNat < 25 := by omega
  have ew : (⟨s.w.toNat, hw'⟩ : Slot) = i := Fin.ext hw
  simp [drain, h, slotOf_of_lt hw', ew]

/-- A drain answers a next state only by finding TXQ empty or by delivering its head. -/
theorem drain_cases {s t : State} (h : drain s = .next t) :
    (s.txq = [] ∧ t = s) ∨
      ∃ x rest i, s.txq = x :: rest ∧ s.w.toNat = Fin.val (n := 25) i ∧ t = s.txPop.stripWrite i x := by
  unfold drain at h
  split at h
  · rename_i he
    cases h
    exact .inl ⟨he, rfl⟩
  · rename_i x rest he
    split at h
    · rename_i i hi
      cases h
      exact .inr ⟨x, rest, i, he, slotOf_eq_some hi, rfl⟩
    · cases h

/-! ### Turns and steps -/

/-- What one step of the machine can do, in the state whose current turn (`none` where no turn is listed) is already
taken off the list. -/
inductive StepEffect (turn : Option Turn) (s : State) : State → Prop
  /-- The turn's step is not enabled, or the Host reads `status`. -/
  | none : StepEffect turn s s
  /-- The Host queues a word. -/
  | offer (w : CmdWord) (listed : turn = some (.hostOffer w)) : StepEffect turn s (s.withOffers (s.offers ++ [w]))
  /-- The platform drives `claim_ok`. -/
  | claimLevel (b : Bool) (listed : turn = some (.platformClaim b)) : StepEffect turn s (s.withClaimOk b)
  /-- A command or an Illegal word is accepted. -/
  | accept (t : State) (effect : AcceptEffect s t) (by_turn : turn = Option.none ∨ turn = some .sequencer) :
      StepEffect turn s t
  /-- A push. -/
  | push (x : Color) (enabled : s.pushEnabled = true) (word : s.nextWord = .ok x)
      (by_turn : turn = Option.none ∨ turn = some .sequencer) : StepEffect turn s (s.txPush x).advancePass
  /-- A drain. -/
  | drain (x : Color) (rest : List Color) (i : Slot) (queue : s.txq = x :: rest) (position : s.w.toNat = i.val)
      (by_turn : turn = Option.none ∨ turn = some .serializer) : StepEffect turn s (s.txPop.stripWrite i x)

theorem push_effect {turn : Option Turn} {s t : State} (h : push s = .next t)
    (by_turn : turn = Option.none ∨ turn = some .sequencer) : StepEffect turn s t := by
  rcases push_cases h with ⟨_, rfl⟩ | ⟨x, hp, hx, rfl⟩
  · exact .none
  · exact .push x hp hx by_turn

theorem drain_effect {turn : Option Turn} {s t : State} (h : drain s = .next t)
    (by_turn : turn = Option.none ∨ turn = some .serializer) : StepEffect turn s t := by
  rcases drain_cases h with ⟨_, rfl⟩ | ⟨x, rest, i, hq, hw, rfl⟩
  · exact .none
  · exact .drain x rest i hq hw by_turn

theorem accept_stepEffect {turn : Option Turn} {s t : State} (h : accept s = .next t)
    (by_turn : turn = Option.none ∨ turn = some .sequencer) : StepEffect turn s t := by
  obtain ⟨t', ht', he⟩ := accept_effect s
  rw [ht'] at h
  cases h
  exact .accept _ he by_turn

theorem sequencerStep_effect {s t : State} (h : sequencerStep s = .next t) :
    StepEffect (some .sequencer) s t := by
  unfold sequencerStep at h
  split at h
  · exact accept_stepEffect h (.inr rfl)
  · exact accept_stepEffect h (.inr rfl)
  · exact push_effect h (.inr rfl)
  · cases h
    exact .none

theorem freeTurn_effect {s t : State} (h : freeTurn s = .next t) : StepEffect Option.none s t := by
  unfold freeTurn at h
  split at h
  · exact push_effect h (.inl rfl)
  · split at h
    · exact drain_effect h (.inl rfl)
    · exact accept_stepEffect h (.inl rfl)

/-- Taking the head off an empty list of turns changes nothing. -/
theorem State.withTurns_tail_of_nil {s : State} (h : s.turns = []) : s.withTurns s.turns.tail = s := by
  cases s
  cases h
  rfl

/-- The one inversion of a step: a reset, if the Host's turn is a reset; otherwise one of the effects above, on the
state whose list of turns has lost its head. -/
theorem step_cases {s t : State} (h : step s = .next t) :
    (∃ ts, s.turns = .hostReset :: ts ∧ t = (s.withTurns ts).resetBlock) ∨
      (s.turns.head? ≠ some .hostReset ∧ StepEffect s.turns.head? (s.withTurns s.turns.tail) t) := by
  unfold step nextTurn at h
  split at h
  · rename_i he
    refine .inr ⟨by simp [he], ?_⟩
    rw [State.withTurns_tail_of_nil he, he]
    exact freeTurn_effect h
  · rename_i turn ts he
    cases turn with
    | hostReset =>
      cases h
      exact .inl ⟨ts, he, rfl⟩
    | hostOffer w =>
      cases h
      exact .inr ⟨by simp [he], by rw [he]; exact .offer w rfl⟩
    | hostReadStatus =>
      cases h
      exact .inr ⟨by simp [he], by rw [he]; exact .none⟩
    | platformClaim b =>
      cases h
      exact .inr ⟨by simp [he], by rw [he]; exact .claimLevel b rfl⟩
    | sequencer => exact .inr ⟨by simp [he], by rw [he]; exact sequencerStep_effect h⟩
    | serializer => exact .inr ⟨by simp [he], by rw [he]; exact drain_effect h (.inr rfl)⟩

end Sys2Proof.Machine
end

