-- ==== Sys2Proof/Laws/PerInstr.lean ====
section
/-! SUPPORT. What holds of every command as syntax: its word is in the format CMD16 and passes every check. -/

namespace Sys2Proof.Laws.Cmd16Fields

/-- The word of a command has the fields of 30_encoding.md R70 and R72: its OP, RSV = 0, its ARG; and they pass the checks
of R76, R77 and R78. -/
def Statement (i : Instr) : Prop :=
  splitWord (encode i) = ⟨i.op, 0x0#4, i.arg⟩ ∧ i.wellFormed = true

theorem nop : Statement .nop := ⟨splitWord_joinFields _, rfl⟩

theorem init : Statement .init := ⟨splitWord_joinFields _, rfl⟩

theorem clear : Statement .clear := ⟨splitWord_joinFields _, rfl⟩

theorem render (d : BitVec 8) : Statement (.render d) := ⟨splitWord_joinFields _, rfl⟩

theorem char (c : BitVec 8) : Statement (.char c) := ⟨splitWord_joinFields _, rfl⟩

end Sys2Proof.Laws.Cmd16Fields
end

