-- ==== Sys2Proof/Laws/Run.lean ====
section
/-! SUPPORT. Runs of the machine, one step at a time, and the induction over a run, once. -/

namespace Sys2Proof.Machine

theorem run_zero (s : State) : run 0 s = .next s := rfl

theorem run_succ (s : State) (n : Nat) :
    run (n + 1) s =
      match step s with
      | .next u => run n u
      | .fault f => .fault f
      | .refused r => .refused r := rfl

/-- The first step of the host's run of any machine. -/
theorem hostRun_succ (M : Host.Core) (s : M.State) (n : Nat) :
    M.run (n + 1) s =
      match M.step s with
      | .next u => M.run n u
      | .fault f => .fault f
      | .refused r => .refused r := rfl

/-- `run` is the host's run of this machine. -/
theorem run_eq_hostRun : ∀ (n : Nat) (s : State), run n s = Host.Core.run Sys2Proof.core n s
  | 0, _ => rfl
  | n + 1, s => by
    have h := hostRun_succ Sys2Proof.core s n
    rw [run_succ]
    cases hs : step s with
    | next u =>
      rw [show Sys2Proof.core.step s = .next u from hs] at h
      exact (run_eq_hostRun n u).trans h.symm
    | fault f =>
      rw [show Sys2Proof.core.step s = .fault f from hs] at h
      exact h.symm
    | refused r =>
      rw [show Sys2Proof.core.step s = .refused r from hs] at h
      exact h.symm

theorem run_succ_of_next {s u : State} (h : step s = .next u) (n : Nat) : run (n + 1) s = run n u := by
  rw [run_succ, h]

/-- A run that answers a next state took a first step that did. -/
theorem run_succ_inv {s t : State} {n : Nat} (h : run (n + 1) s = .next t) :
    ∃ u, step s = .next u ∧ run n u = .next t := by
  rw [run_succ] at h
  cases hs : step s with
  | next u =>
    rw [hs] at h
    exact ⟨u, rfl, h⟩
  | fault f =>
    rw [hs] at h
    cases h
  | refused r =>
    rw [hs] at h
    cases h

/-- What every step keeps, every run keeps. -/
theorem run_keeps {P : State → Prop} (keep : ∀ s t, P s → step s = .next t → P t) :
    ∀ (n : Nat) (s t : State), P s → run n s = .next t → P t := by
  intro n
  induction n with
  | zero =>
    intro s t hs h
    cases h
    exact hs
  | succ n ih =>
    intro s t hs h
    obtain ⟨u, hu, hr⟩ := run_succ_inv h
    exact ih u t (keep s u hs hu) hr

/-- What relates the ends of every step, and is reflexive and transitive, relates the ends of every run. -/
theorem run_relates {P : State → Prop} {R : State → State → Prop} (refl : ∀ s, R s s)
    (trans : ∀ a b c, R a b → R b c → R a c) (keep : ∀ s t, P s → step s = .next t → P t ∧ R s t) :
    ∀ (n : Nat) (s t : State), P s → run n s = .next t → P t ∧ R s t := by
  intro n
  induction n with
  | zero =>
    intro s t hs h
    cases h
    exact ⟨hs, refl s⟩
  | succ n ih =>
    intro s t hs h
    obtain ⟨u, hu, hr⟩ := run_succ_inv h
    obtain ⟨hpu, hru⟩ := keep s u hs hu
    obtain ⟨hpt, hrt⟩ := ih u t hpu hr
    exact ⟨hpt, trans _ _ _ hru hrt⟩

end Sys2Proof.Machine
end

