-- ==== Sys2Proof/Tests/Slice0.lean ====
section
/-! SUPPORT. The model's own tests: expected values are the spec's (95_test_vectors.md, 30_encoding.md, 40_index_mapper.md);
and for every statement with hypotheses a state and operands that meet them. -/

namespace Sys2Proof.Tests

open Sys2Proof Sys2Proof.Machine

/-! ### Small configurations and states -/

/-- The test bank TB of 95_test_vectors.md: in glyph d only logical pixel d is lit. -/
def tb : Params where
  colorW := 24
  txqDepth := 4
  rom := Config.vecOf 250 (fun a => if a % 25 = a / 25 then 0x00FF00 else 0)
  cOn := 0x00FF00
  outputPin := 0
  wireEncoding := 0
  colorLayout := 0

/-- The probe bank PB of 95_test_vectors.md: every pixel i of every glyph holds i + 1. -/
def pb : Params := { tb with rom := Config.vecOf 250 (fun a => a % 25 + 1) }

/-- UNINIT, with a strip of sevens. -/
def fresh : State where
  st := .uninit
  opk := .zero
  dig := 0#4
  k := 0#5
  mact := false
  claimed := false
  fcode := .none
  txq := []
  w := 0#5
  strip := Config.vecOf 25 (fun _ => 7)
  wire := []
  cfg := tb
  offers := []
  claimOk := true
  healthy := true
  turns := []

/-- IDLE after INIT. -/
def idleState : State := { fresh with st := .idle, claimed := true }

/-- IDLE with MACT = 1. -/
def activeState : State := { idleState with mact := true }

/-- STREAM: glyph 3, K = 5, TXQ empty, W = 5 (95_test_vectors.md V17, first row). -/
def streamState : State := { activeState with st := .stream, opk := .glyph, dig := 3#4, k := 5#5, w := 5#5 }

/-- STREAM: a zero pass at its last slot, two words queued (V17, second row). -/
def lastPush : State := { idleState with st := .stream, k := 24#5, txq := [0, 0], w := 22#5 }

/-- STREAM with TXQ full (V17, third row). -/
def fullState : State := { streamState with dig := 0#4, k := 10#5, txq := [0, 0, 0, 0], w := 6#5 }

/-- FAULT after RENDER 12 (95_test_vectors.md P3). -/
def haltedState : State := { idleState with st := .fault, fcode := .badDigit }

/-- IDLE with two words still queued at the end of the strip (V18, first row). -/
def drainState : State := { idleState with txq := [0x00FF00, 0], w := 24#5 }

def stateOf : Host.Outcome State Fault Refusal → Option State
  | .next t => some t
  | .fault _ => none
  | .refused _ => none

/-- The outcome is a next state of which p holds. -/
def nextHolds (o : Host.Outcome State Fault Refusal) (p : State → Bool) : Bool :=
  match o with
  | .next t => p t
  | .fault _ => false
  | .refused _ => false

/-! ### WellFormed: one ill-formed term for each check -/

theorem test_wellFormed_refuses_reserved_field : (Cmd16.mk 0x3#4 0xA#4 0x0C#8).wellFormed = false := by decide

theorem test_wellFormed_refuses_reserved_op : (Cmd16.mk 0x5#4 0x0#4 0x00#8).wellFormed = false := by decide

theorem test_wellFormed_refuses_argument_of_nop : (Cmd16.mk 0x0#4 0x0#4 0x01#8).wellFormed = false := by decide

theorem test_wellFormed_accepts_render_10 : (Cmd16.mk 0x3#4 0x0#4 0x0A#8).wellFormed = true := by decide

theorem test_asm_wellFormed_refuses_256 : (Asm.render 256).wellFormed = false ∧ (Asm.charNum 256).wellFormed = false := by
  decide

theorem test_asm_wellFormed_refuses_non_ascii : (Asm.charLit (Char.ofNat 233)).wellFormed = false := by decide

/-! ### Decoding: words written out bit by bit, OP RSV ARG (30_encoding.md R70, R72) -/

theorem test_decode_nop : decode 0b0000_0000_00000000#16 = .ok .nop := by decide

theorem test_decode_init : decode 0b0001_0000_00000000#16 = .ok .init := by decide

theorem test_decode_clear : decode 0b0010_0000_00000000#16 = .ok .clear := by decide

theorem test_decode_render_9 : decode 0b0011_0000_00001001#16 = .ok (.render 9#8) := by decide

theorem test_decode_char_seven : decode 0b0100_0000_00110111#16 = .ok (.char 0x37#8) := by decide

theorem test_decode_rejects_by_name :
    decode 0x0100#16 = .error .reservedFieldNonzero ∧ decode 0xF0FF#16 = .error .reservedOp ∧
      decode 0x2001#16 = .error .argNonzero := by decide

theorem test_decodeTableWord_render_3 : decodeTableWord 16 0x3003 = some (.render 3#8) := by decide

/-! ### IndexMapper (40_index_mapper.md R104; 95_test_vectors.md V10) -/

theorem test_indexMap_table :
    (List.finRange 25).map (fun i => (indexMap i).val) =
      [24, 23, 22, 21, 20, 15, 16, 17, 18, 19, 14, 13, 12, 11, 10, 5, 6, 7, 8, 9, 4, 3, 2, 1, 0] := by decide

/-! ### Commands (95_test_vectors.md V14) -/

/-- V14 v. -/
theorem test_nop_leaves_state :
    (stateOf (exec .nop activeState)).map (fun t => (t.st, t.mact, t.claimed, t.fcode)) =
      some (.idle, true, true, .none) := by decide

/-- V14 b. -/
theorem test_init_starts_clear :
    (stateOf (exec .init fresh)).map (fun t => (t.st, t.mact, t.claimed, t.fcode, t.opk)) =
      some (.stream, false, true, .none, .zero) := by decide

/-- V14 c. -/
theorem test_init_claim_fail :
    (stateOf (exec .init { fresh with claimOk := false })).map (fun t => (t.st, t.claimed, t.fcode)) =
      some (.fault, false, .claimFail) := by decide

/-- V14 f. -/
theorem test_clear_starts_zero_pass :
    (stateOf (exec .clear activeState)).map (fun t => (t.st, t.mact, t.opk)) = some (.stream, false, .zero) := by decide

/-- V14 e. -/
theorem test_clear_before_init :
    (stateOf (exec .clear fresh)).map (fun t => (t.st, t.fcode)) = some (.fault, .notInit) := by decide

/-- V14 i. -/
theorem test_render_9 :
    (stateOf (exec (.render 9#8) idleState)).map (fun t => (t.st, t.mact, t.opk, t.dig)) =
      some (.stream, true, .glyph, 9#4) := by decide

/-- V14 j and k: BAD_DIGIT, which NOT_INIT outranks. -/
theorem test_render_bad_digit :
    (stateOf (exec (.render 10#8) activeState)).map (fun t => (t.st, t.mact, t.fcode)) =
        some (.fault, true, .badDigit) ∧
      (stateOf (exec (.render 12#8) fresh)).map (fun t => t.fcode) = some .notInit := by decide

/-- V14 m: a digit renders, without clearing first. -/
theorem test_char_digit :
    (stateOf (exec (.char 0x35#8) activeState)).map (fun t => (t.st, t.mact, t.opk, t.dig)) =
      some (.stream, true, .glyph, 5#4) := by decide

/-- V14 p and q: '/' clears if MACT = 1, ':' does nothing if MACT = 0. -/
theorem test_char_beside_the_digits :
    (stateOf (exec (.char 0x2F#8) activeState)).map (fun t => (t.st, t.mact, t.opk)) = some (.stream, false, .zero) ∧
      (stateOf (exec (.char 0x3A#8) idleState)).map (fun t => (t.st, t.mact)) = some (.idle, false) := by decide

/-- V14 u: an Illegal word before INIT. -/
theorem test_illegal_word_first :
    (stateOf (step (fresh.withFetchWord 16 0x5000))).map (fun t => (t.st, t.fcode, t.offers)) =
      some (.fault, .illegalCmd, []) := by decide

/-- The first instruction after reset: RENDER 3 faults NOT_INIT, INIT starts the clear (41_commands.md R121, R115). -/
theorem test_first_instruction_after_reset :
    (stateOf (step (State.reset.withFetchWord 16 0x3003))).map (fun t => t.fcode) = some .notInit ∧
      (stateOf (step (State.reset.withFetchWord 16 0x1000))).map (fun t => t.st) = some .stream := by decide

/-! ### Push, drain, status (95_test_vectors.md V15, V17, V18, V19) -/

/-- 42_stream_serializer.md R144's example: slot 5 of glyph 3 is GLYPH[3][15]; with PB that is 16. -/
theorem test_push_reads_mapped_word :
    (stateOf (push { streamState with cfg := pb })).map (fun t => (t.txq, t.k)) = some ([16], 6#5) := by decide

/-- V17, second row. -/
theorem test_push_ends_pass :
    (stateOf (push lastPush)).map (fun t => (t.txq, t.k, t.st)) = some ([0, 0, 0], 0#5, .idle) := by decide

/-- V15. -/
theorem test_pass_of_probe_bank :
    passWords pb .glyph 0 =
      [25, 24, 23, 22, 21, 16, 17, 18, 19, 20, 15, 14, 13, 12, 11, 6, 7, 8, 9, 10, 5, 4, 3, 2, 1] := by decide

/-- V18, first row. -/
theorem test_drain_wraps :
    (stateOf (drain drainState)).map (fun t => (t.txq, t.w, t.strip[24], t.wire)) =
      some ([0], 0#5, 0x00FF00, [0x00FF00]) := by decide

/-- V19: the fault rows, and a full queue of depth 1. -/
theorem test_status_values :
    fresh.status = 0x0008#16 ∧ haltedState.status = 0x0429#16 ∧
      { idleState with st := .fault, fcode := .illegalCmd, txq := [0, 0, 0] }.status = 0x0121#16 ∧
      { idleState with st := .stream, txq := [0], cfg := { tb with txqDepth := 1 } }.status = 0x0013#16 := by decide

/-! ### Assembler (30_encoding.md R83, R84) -/

/-- `char 'x' ; a` -/
theorem test_assemble_quoted :
    assembleLine ['c', 'h', 'a', 'r', ' ', Char.ofNat 39, 'x', Char.ofNat 39, ' ', ';', 'a'] = .ok (some 0x4078#16) := by
  rfl

/-- `RENDER 0x0A` -/
theorem test_assemble_hex : assembleLine ['R', 'E', 'N', 'D', 'E', 'R', ' ', '0', 'x', '0', 'A'] = .ok (some 0x300A#16) := by
  rfl

/-! ### Witnesses: hypotheses of the statements that are met -/

theorem witness_MalformedWordsAreIllegal :
    5 ≤ (0x5000#16).toNat / 4096 ∧ (0x0100#16).toNat / 256 % 16 ≠ 0 ∧
      ((0x2001#16).toNat / 4096 ≤ 2 ∧ (0x2001#16).toNat % 256 ≠ 0) ∧ fresh.cmdReady = true := by decide

theorem witness_DecodedWordIsTheEncoding : decode 0x4039#16 = .ok (.char 0x39#8) := by decide

theorem witness_CommandWordCounts :
    decode 0x3009#16 = .ok (.render 9#8) ∧ decode 0x300A#16 = .ok (.render 10#8) := by decide

theorem witness_AssemblerPlacesOperands : 255 ≤ 255 ∧ 255 < 256 ∧ (Char.ofNat 127).toNat ≤ 127 := by decide

theorem witness_NopChangesNothing : fresh.st = .uninit ∧ idleState.st = .idle := by decide

theorem witness_InitClaimsAndStartsClear :
    fresh.st = .uninit ∧ fresh.claimed = false ∧ fresh.claimOk = true := by decide

theorem witness_ClearStartsZeroPass : idleState.st = .idle ∧ idleState.claimed = true := by decide

theorem witness_RenderStartsGlyphPass :
    idleState.st = .idle ∧ idleState.claimed = true ∧ (9#8).toNat ≤ 9 ∧ (0#8).toNat ≤ 9 := by decide

/-- Both sides of each edge of the digits. -/
theorem witness_CharDispatches :
    activeState.st = .idle ∧ activeState.claimed = true ∧ ¬(0x30 ≤ (0x2F#8).toNat ∧ (0x2F#8).toNat ≤ 0x39) ∧
      (0x30 ≤ (0x30#8).toNat ∧ (0x30#8).toNat ≤ 0x39) ∧ (0x30 ≤ (0x39#8).toNat ∧ (0x39#8).toNat ≤ 0x39) ∧
      ¬(0x30 ≤ (0x3A#8).toNat ∧ (0x3A#8).toNat ≤ 0x39) := by decide

theorem witness_CharDigitActsAsRender : 0x30 ≤ (0x39#8).toNat ∧ (0x39#8).toNat ≤ 0x39 := by decide

theorem witness_CharNonDigitActsAsClear :
    ¬(0x30 ≤ (0x3A#8).toNat ∧ (0x3A#8).toNat ≤ 0x39) ∧ activeState.mact = true ∧ activeState.cmdReady = true ∧
      activeState.claimed = true := by decide

theorem witness_MactMattersOnlyToNonDigitChar :
    (¬(0x30 ≤ (0x2F#8).toNat ∧ (0x2F#8).toNat ≤ 0x39) ∧ idleState.mact = false ∧ idleState.cmdReady = true ∧
      idleState.claimed = true) ∧
      (∀ c : BitVec 8, Instr.clear = .char c → 0x30 ≤ c.toNat ∧ c.toNat ≤ 0x39) ∧
      nextHolds (exec .clear idleState) (fun _ => true) = true :=
  ⟨by decide, (by intro c h; cases h), by decide⟩

theorem witness_SecondInitFaults : idleState.cmdReady = true ∧ idleState.claimed = true := by decide

theorem witness_FailedClaimFaults :
    { fresh with claimOk := false }.cmdReady = true ∧ { fresh with claimOk := false }.claimed = false ∧
      { fresh with claimOk := false }.claimOk = false := by decide

theorem witness_CommandsBeforeInitFault : fresh.cmdReady = true ∧ fresh.claimed = false := by decide

theorem witness_BadDigitFaults :
    idleState.cmdReady = true ∧ idleState.claimed = true ∧ 9 < (10#8).toNat ∧ 9 < (255#8).toNat := by decide

theorem witness_FaultPriority : fresh.cmdReady = true ∧ (decode 0x3A0C#16).toOption = none := by decide

theorem witness_FaultsArePrecise :
    fresh.st ≠ .fault ∧ nextHolds (exec (.render 12#8) fresh) (fun t => t.st == .fault) = true ∧
    nextHolds (step { fresh with offers := [0x300C#16] }) (fun t => t.st == .fault) = true := by decide

theorem witness_CommandsWaitWhileNotReady :
    { streamState with turns := [.sequencer], offers := [0#16] }.st = .stream ∧ haltedState.st = .fault ∧
      nextHolds (step { streamState with turns := [.sequencer], offers := [0#16] }) (fun t => t.offers == [0#16]) = true := by
  decide

theorem witness_CommandFrame :
    nextHolds (exec .nop fresh) (fun _ => true) = true ∧ nextHolds (exec .init fresh) (fun t => t.claimed) = true ∧
      nextHolds (exec .clear idleState) (fun t => t.st == .stream) = true := by decide

/-- A state with a word on the port and the Sequencer to move. -/
def offering : State := { idleState with offers := [0x3003#16, 0x2000#16], turns := [.sequencer, .serializer] }

theorem witness_StepRunsDecodedCommand :
    offering.cmdReady = true ∧ offering.offers = 0x3003#16 :: [0x2000#16] ∧ decode 0x3003#16 = .ok (.render 3#8) ∧
      offering.turns = .sequencer :: [.serializer] ∧ { offering with turns := [] }.txq = [] := by decide

theorem witness_StepFaultsOnIllegalWord :
    { offering with offers := [0x300#16] }.cmdReady = true ∧ decode 0x300#16 = .error .reservedFieldNonzero := by decide

/-- Slot 5, and slot 24 with which a pass ends, of both kinds of pass. -/
theorem witness_PushAppendsPassWord :
    (streamState.st = .stream ∧ streamState.txq.length < streamState.cfg.txqDepth ∧
      streamState.k.toNat = (5 : Slot).val ∧ streamState.opk = .glyph ∧ streamState.dig.toNat = (3 : Digit).val ∧
      (90 : RomAddr).val = 25 * (3 : Digit).val + (indexMap 5).val) ∧
      (lastPush.st = .stream ∧ lastPush.txq.length < lastPush.cfg.txqDepth ∧ lastPush.k.toNat = (24 : Slot).val ∧
        lastPush.opk = .zero) := by decide

theorem witness_DrainDeliversHead : drainState.txq = 0x00FF00 :: [0] ∧ drainState.w.toNat = (24 : Slot).val := by decide

theorem witness_StripChangesOnlyByDelivery :
    nextHolds (step drainState) (fun t => t.wire == [0x00FF00]) = true ∧
      nextHolds (step { drainState with turns := [.hostReset] }) (fun t => t.wire == [] && t.w == 0#5) = true := by decide

theorem witness_FullQueueHoldsForEver :
    (fullState.st = .stream ∧ fullState.txq.length = fullState.cfg.txqDepth) ∧
      { fullState with healthy := false }.blocked = true := by decide

theorem witness_StatusLayout : { idleState with turns := [.hostReadStatus] }.turns = .hostReadStatus :: [] := by decide

theorem witness_ResetStepRestoresRegisters :
    { fullState with turns := [.hostReset] }.turns = .hostReset :: [] ∧ 1 ≤ fullState.cfg.txqDepth := by decide

theorem fresh_inv : fresh.Inv := by constructor <;> decide

theorem idleState_inv : idleState.Inv := by constructor <;> decide

theorem streamState_inv : streamState.Inv := by constructor <;> decide

theorem fullState_inv : fullState.Inv := by constructor <;> decide

theorem haltedState_inv : haltedState.Inv := by constructor <;> decide

theorem witness_StepKeepsInvariants :
    streamState.Inv ∧ nextHolds (step streamState) (fun t => t.k == 6#5) = true :=
  ⟨streamState_inv, by decide⟩

theorem witness_StepAlwaysAnswers : fullState.Inv := fullState_inv

/-- The bank of zeros, so that its 250 words are compared quickly. -/
def darkState : State := { drainState with cfg := { tb with rom := Config.vecOf 250 (fun _ => 0) } }

theorem witness_StepKeepsColorWidth :
    darkState.ColorsFit ∧ nextHolds (step darkState) (fun t => t.wire == [0x00FF00]) = true := by
  refine ⟨⟨?_, by decide, by decide, by decide⟩, by decide⟩
  decide +kernel

theorem witness_ConfigurationIsFixed : nextHolds (step offering) (fun t => t.st == .stream) = true := by decide

theorem witness_OnlyResetLeavesFault :
    haltedState.st = .fault ∧ nextHolds (step { haltedState with offers := [0x2000#16] }) (fun t => t.st == .fault) = true ∧
      nextHolds (step { haltedState with turns := [.hostReset] }) (fun t => t.st == .uninit) = true := by decide

theorem witness_FlagsChangeOnlyAtAcceptance :
    nextHolds (step { fresh with offers := [0x1000#16] }) (fun t => !fresh.claimed && t.claimed) = true ∧
      nextHolds (step { idleState with turns := [.hostReset] }) (fun t => idleState.claimed && !t.claimed) = true ∧
      nextHolds (step offering) (fun t => t.mact != offering.mact) = true := by decide

theorem witness_PassIsNeverInterrupted :
    streamState.st = .stream ∧ streamState.turns.head? ≠ some .hostReset ∧
      nextHolds (step streamState) (fun t => t.st == .stream) = true ∧ lastPush.turns.head? ≠ some .hostReset ∧
      nextHolds (step lastPush) (fun t => t.st == .idle) = true := by decide

theorem witness_LifecycleMoves :
    (fresh.Inv ∧ fresh.turns.head? ≠ some .hostReset ∧
      nextHolds (step { fresh with offers := [0x1000#16] }) (fun t => t.st == .stream) = true) ∧
      (idleState.Inv ∧ nextHolds (step { idleState with offers := [0x1000#16] }) (fun t => t.st == .fault) = true) ∧
      (haltedState.Inv ∧ nextHolds (step haltedState) (fun t => t.st == .fault) = true) :=
  ⟨⟨fresh_inv, by decide, by decide⟩, ⟨idleState_inv, by decide⟩, ⟨haltedState_inv, by decide⟩⟩

theorem witness_StepAppendsAcceptedPass :
    { idleState with offers := [0x2000#16] }.Inv ∧ { idleState with offers := [0x2000#16] }.turns.head? ≠ some .hostReset ∧
      nextHolds (step { idleState with offers := [0x2000#16] }) (fun t => t.st == .stream) = true ∧
      { idleState with offers := [0x2000#16] }.stepPass = List.replicate 25 0 :=
  ⟨by constructor <;> decide, by decide, by decide, by decide⟩

theorem witness_WireIsConcatenationOfPasses :
    { haltedState with offers := [0x1000#16] }.noReset = true ∧
      nextHolds (run 2 { haltedState with offers := [0x1000#16] }.resetBlock)
        (fun t => t.st == .stream && t.txq == [0]) = true := by decide

/-- A run of the least length that ends a pass: 25 pushes and 25 drains. -/
theorem witness_RenderedFrameReachesStrip :
    idleState.Inv ∧ idleState.cmdReady = true ∧ idleState.claimed = true ∧ idleState.undisturbed = true ∧
      (9#8).toNat = (9 : Digit).val ∧ exec (.render 9#8) idleState = .next (idleState.beginRender 9#4) ∧
      nextHolds (run 50 (idleState.beginRender 9#4)) (fun t => t.st == .idle && t.txq == []) = true :=
  ⟨idleState_inv, by decide, by decide, by decide, by decide, rfl, by decide⟩

theorem witness_ClearedStripIsAllZero :
    activeState.Inv ∧ activeState.cmdReady = true ∧ activeState.undisturbed = true ∧ activeState.claimed = true ∧
      exec .clear activeState = .next activeState.beginClear ∧
      nextHolds (run 50 activeState.beginClear) (fun t => t.st == .idle && t.txq == []) = true :=
  ⟨by constructor <;> decide, by decide, by decide, by decide, rfl, by decide⟩

theorem witness_ClearedStripIsAllZero_init :
    fresh.Inv ∧ fresh.cmdReady = true ∧ fresh.undisturbed = true ∧ fresh.claimed = false ∧ fresh.claimOk = true ∧
      exec .init fresh = .next fresh.claim.beginClear ∧
      nextHolds (run 50 fresh.claim.beginClear) (fun t => t.st == .idle && t.txq == []) = true :=
  ⟨fresh_inv, by decide, by decide, by decide, by decide, rfl, by decide⟩

theorem witness_DoneMeansDelivered :
    idleState.Inv ∧ idleState.status.getLsbD 1 = false ∧ idleState.status.getLsbD 3 = true :=
  ⟨idleState_inv, by decide, by decide⟩

theorem witness_QuiescentStates :
    (idleState.Inv ∧ 1 ≤ idleState.cfg.txqDepth ∧ idleState.quiescent = true ∧ idleState.turns = []) ∧
      haltedState.Inv ∧ haltedState.quiescent = true ∧ haltedState.final = false :=
  ⟨⟨idleState_inv, by decide, by decide, by decide⟩, haltedState_inv, by decide, by decide⟩

theorem witness_HealthyRunDelivers :
    fullState.Inv ∧ 1 ≤ fullState.cfg.txqDepth ∧ fullState.turns = [] ∧ fullState.offers = [] ∧ fullState.healthy = true :=
  ⟨fullState_inv, by decide, by decide, by decide, by decide⟩

theorem witness_EdgeIsAnInterleaving :
    { drainState with turns := [.sequencer, .serializer, .hostReadStatus] }.turns =
        edgeTurns true true drainState ++ [.hostReadStatus] ∧
      { drainState with turns := [.hostReset] }.turns = edgeTurns false true drainState ++ [] := by decide

end Sys2Proof.Tests
end

section
/-! PROOFS. The invariants of 10_state.md R38: what a ready state gives, each effect of `StepEffect` keeps them, and so
does a step. Then the layout of `status` (R32). -/

namespace Sys2Proof.Machine

/-! ### Resets and inputs -/

theorem State.resetBlock_inv (s : State) : s.resetBlock.Inv where
  uninit _ := ⟨rfl, rfl⟩
  live := by simp
  faulted := by simp
  digit := by simp
  counter := by simp
  aligned := by simp
  depth := by simp
  position := by simp

theorem State.Inv.withTurns {s : State} (h : s.Inv) (ts : List Turn) : (s.withTurns ts).Inv :=
  ⟨h.uninit, h.live, h.faulted, h.digit, h.counter, h.aligned, h.depth, h.position⟩

theorem State.Inv.withOffers {s : State} (h : s.Inv) (ws : List CmdWord) : (s.withOffers ws).Inv :=
  ⟨h.uninit, h.live, h.faulted, h.digit, h.counter, h.aligned, h.depth, h.position⟩

theorem State.Inv.withClaimOk {s : State} (h : s.Inv) (b : Bool) : (s.withClaimOk b).Inv :=
  ⟨h.uninit, h.live, h.faulted, h.digit, h.counter, h.aligned, h.depth, h.position⟩

/-! ### Commands -/

/-- Where a command is accepted no fault is recorded, no slot is due, and the queued words end at a frame boundary. -/
theorem State.Inv.of_ready {s : State} (h : s.Inv) (hr : s.cmdReady = true) :
    s.st ≠ .stream ∧ s.fcode = .none ∧ s.k = 0#5 ∧ (s.w.toNat + s.txq.length) % 25 = 0 := by
  have hlive : s.st ≠ .stream ∧ s.st ≠ .fault := by
    rcases s.cmdReady_iff.mp hr with hst | hst <;> simp [hst]
  obtain ⟨hstream, hfault⟩ := hlive
  have hcode : s.fcode = .none := by simpa using mt h.faulted.mpr hfault
  have haligned := h.aligned
  rw [if_neg hstream] at haligned
  exact ⟨hstream, hcode, h.counter.2 hstream, haligned⟩

theorem State.Inv.raiseFault {s : State} (h : s.Inv) (hr : s.cmdReady = true) {c : FCode} (hc : c ≠ .none) :
    (s.raiseFault c).Inv := by
  obtain ⟨-, -, hk, haligned⟩ := h.of_ready hr
  exact
    { uninit := by simp
      live := by simp
      faulted := by simpa using hc
      digit := by simp
      counter := by simp [hk]
      aligned := by simpa using haligned
      depth := h.depth
      position := h.position }

/-- StartPass meets the invariants as soon as the resource is claimed: a successful INIT claims it in the same step, in a
state (UNINIT with CLAIMED = 1) that does not meet them itself. -/
theorem State.startPass_inv {s : State} {kind : Opk} {d : BitVec 4} (claimed : s.claimed = true)
    (noFault : s.fcode = .none) (aligned : (s.w.toNat + s.txq.length) % 25 = 0)
    (depth : s.txq.length ≤ s.cfg.txqDepth) (position : s.w.toNat ≤ 24) (digit : kind = .glyph → d.toNat ≤ 9) :
    (s.startPass kind d).Inv where
  uninit := by simp
  live _ := claimed
  faulted := by simp [noFault]
  digit _ := digit
  counter := by simp
  aligned := by simpa using aligned
  depth := depth
  position := position

theorem State.Inv.claim_beginClear {s : State} (h : s.Inv) (hr : s.cmdReady = true) : s.claim.beginClear.Inv := by
  obtain ⟨-, hcode, -, haligned⟩ := h.of_ready hr
  exact State.startPass_inv rfl hcode haligned h.depth h.position (by simp)

theorem State.Inv.beginClear {s : State} (h : s.Inv) (hr : s.cmdReady = true) (hc : s.claimed = true) :
    s.beginClear.Inv := by
  obtain ⟨-, hcode, -, haligned⟩ := h.of_ready hr
  exact State.startPass_inv hc hcode haligned h.depth h.position (by simp)

theorem State.Inv.beginRender {s : State} (h : s.Inv) (hr : s.cmdReady = true) (hc : s.claimed = true) {n : BitVec 4}
    (hn : n.toNat ≤ 9) : (s.beginRender n).Inv := by
  obtain ⟨-, hcode, -, haligned⟩ := h.of_ready hr
  exact State.startPass_inv hc hcode haligned h.depth h.position (fun _ => hn)

theorem ExecEffect.keeps_inv {i : Instr} {s t : State} (e : ExecEffect i s t) (h : s.Inv) : t.Inv := by
  cases e with
  | none => exact h
  | fault c ready code => exact h.raiseFault ready code
  | init ready => exact h.claim_beginClear ready
  | clear ready _ claimed => exact h.beginClear ready claimed
  | render n ready _ claimed digit => exact h.beginRender ready claimed digit

theorem AcceptEffect.keeps_inv {s t : State} (e : AcceptEffect s t) (h : s.Inv) : t.Inv := by
  cases e with
  | none => exact h
  | illegal w rest r ready => exact (h.withOffers rest).raiseFault ready (by simp)
  | command w rest i t ready offer decoded effect => exact effect.keeps_inv (h.withOffers rest)

/-! ### Push and drain -/

/-- A push lengthens TXQ by one and moves K on by one, or ends the pass on the frame boundary. -/
theorem State.Inv.txPush_advancePass {s : State} (h : s.Inv) (hp : s.pushEnabled = true) (x : Color) :
    (s.txPush x).advancePass.Inv := by
  obtain ⟨hst, hroom⟩ := s.pushEnabled_iff.mp hp
  have hclaimed : s.claimed = true := h.live (.inr hst)
  have hcode : s.fcode = .none := by simpa [hst] using h.faulted
  obtain ⟨hk, -⟩ := h.counter
  have haligned := h.aligned
  rw [if_pos hst] at haligned
  have hdepth : (s.txq ++ [x]).length ≤ s.cfg.txqDepth := by simpa using hroom
  by_cases hlast : s.k.toNat = 24
  · have hwhole : (s.w.toNat + (s.txq.length + 1)) % 25 = 0 := by omega
    exact
      { uninit := by simp [hlast]
        live _ := hclaimed
        faulted := by simp [hlast, hcode]
        digit := by simp [hlast]
        counter := by simp [hlast]
        aligned := by simpa [hlast] using hwhole
        depth := hdepth
        position := h.position }
  · have hnext : (s.k + 1#5).toNat = s.k.toNat + 1 := by bv_omega
    have hcounter : s.k.toNat + 1 ≤ 24 := by omega
    have hsum : (s.w.toNat + (s.txq.length + 1)) % 25 = s.k.toNat + 1 := by omega
    exact
      { uninit := by simp [hlast, hst]
        live _ := hclaimed
        faulted := by simp [hlast, hst, hcode]
        digit _ := h.digit hst
        counter := by simpa [hlast, hst, hnext] using hcounter
        aligned := by simpa [hlast, hst, hnext] using hsum
        depth := hdepth
        position := h.position }

/-- A drain shortens TXQ by one and moves W on by one around the strip, so W + |TXQ| stays the same modulo 25. -/
theorem State.Inv.txPop_stripWrite {s : State} (h : s.Inv) {x : Color} {rest : List Color} {i : Slot}
    (hq : s.txq = x :: rest) (hw : s.w.toNat = i.val) : (s.txPop.stripWrite i x).Inv := by
  have hnext : (s.txPop.stripWrite i x).w.toNat = (i.val + 1) % 25 := by
    rw [State.stripWrite_w, BitVec.toNat_ofNat]
    omega
  have hshorter : s.txq.length = (s.txPop.stripWrite i x).txq.length + 1 := by simp [hq]
  have hsum : ((s.txPop.stripWrite i x).w.toNat + (s.txPop.stripWrite i x).txq.length) % 25 =
      (s.w.toNat + s.txq.length) % 25 := by omega
  exact
    { uninit := fun hst => absurd (h.uninit hst).2 (by simp [hq])
      live := h.live
      faulted := h.faulted
      digit := h.digit
      counter := h.counter
      aligned := hsum.trans h.aligned
      depth := le_trans (by omega) h.depth
      position := by omega }

/-! ### Steps -/

theorem StepEffect.keeps_inv {turn : Option Turn} {s t : State} (e : StepEffect turn s t) (h : s.Inv) : t.Inv := by
  cases e with
  | none => exact h
  | offer w => exact h.withOffers _
  | claimLevel b => exact h.withClaimOk b
  | accept t effect => exact effect.keeps_inv h
  | push x enabled => exact h.txPush_advancePass enabled x
  | drain x rest i queue position => exact h.txPop_stripWrite queue position

theorem step_keeps_inv {s t : State} (h : s.Inv) (hs : step s = .next t) : t.Inv := by
  rcases step_cases hs with ⟨ts, -, rfl⟩ | ⟨-, effect⟩
  · exact (s.withTurns ts).resetBlock_inv
  · exact effect.keeps_inv (h.withTurns _)

/-- Settles O33: a reset gives the invariants and every effect of a step keeps them. -/
theorem stepKeepsInvariants : Obligations.StepKeepsInvariants :=
  ⟨State.resetBlock_inv, fun _ _ => step_keeps_inv⟩

/-! ### Status -/

@[simp] theorem State.busy_iff (s : State) : s.busy = true ↔ s.st = .stream := by simp [State.busy]

@[simp] theorem State.txqEmpty_iff (s : State) : s.txqEmpty = true ↔ s.txq.length = 0 := by simp [State.txqEmpty]

@[simp] theorem State.txqFull_iff (s : State) : s.txqFull = true ↔ s.txq.length = s.cfg.txqDepth := by
  simp [State.txqFull]

@[simp] theorem State.faulted_iff (s : State) : s.faulted = true ↔ s.st = .fault := by simp [State.faulted]

theorem step_hostReadStatus {s : State} {ts : List Turn} (h : s.turns = .hostReadStatus :: ts) :
    step s = .next (s.withTurns ts) := by
  simp [step, nextTurn, h, takeTurn]

/-- Settles O30: the fields of the packed word are the flags, each of which is one comparison on the state. -/
theorem statusLayout : Obligations.StatusLayout := by
  intro s
  obtain ⟨hclaimed, hbusy, hmact, hempty, hfull, hfaulted, hreserved, hcode, hhigh⟩ :=
    packStatus_fields s.fcode.code s.faulted s.txqFull s.txqEmpty s.mact s.busy s.claimed
  refine ⟨hclaimed, ?_, hmact, ?_, ?_, ?_, hreserved, hcode, hhigh, s.cmdReady_iff, fun _ => step_hostReadStatus⟩
  · rw [State.status, hbusy, State.busy_iff]
  · rw [State.status, hempty, State.txqEmpty_iff]
  · rw [State.status, hfull, State.txqFull_iff]
  · rw [State.status, hfaulted, State.faulted_iff]

end Sys2Proof.Machine
end

section
/-! PROOFS. The colour-word stream (20_memory.md R60). `State.promised` is every word delivered, queued or still to be
pushed. A push and a drain only move a word along it, and an accept appends the pass of the command accepted behind it;
so over a run without a reset it gains the passes of the accepted commands, in acceptance order. None of this needs the
invariants of R38: a push out of range answers no next state. -/

namespace Sys2Proof.Machine

/-! ### The pass in progress -/

theorem State.unsent_of_not_stream {s : State} (h : s.st ≠ .stream) : s.unsent = [] := if_neg h

theorem State.unsent_of_stream {s : State} (h : s.st = .stream) : s.unsent = s.currentPass.drop s.k.toNat := if_pos h

theorem State.unsent_of_ready {s : State} (hr : s.cmdReady = true) : s.unsent = [] := by
  apply State.unsent_of_not_stream
  rcases s.cmdReady_iff.mp hr with hst | hst <;> simp [hst]

@[simp] theorem State.raiseFault_unsent (s : State) (c : FCode) : (s.raiseFault c).unsent = [] := rfl

@[simp] theorem State.resetBlock_unsent (s : State) : s.resetBlock.unsent = [] := rfl

theorem passWords_length (cfg : Params) (kind : Opk) (d : Digit) : (passWords cfg kind d).length = 25 := by
  simp [passWords]

theorem passWords_zero (cfg : Params) (d : Digit) : passWords cfg .zero d = List.replicate 25 off := by
  have hword : passWord cfg .zero d = fun _ => off := rfl
  rw [passWords, hword, List.map_const', List.length_finRange]

@[simp] theorem State.beginClear_unsent (s : State) : s.beginClear.unsent = List.replicate 25 off :=
  passWords_zero s.cfg _

theorem State.beginRender_unsent {s : State} {n : BitVec 4} {d : Digit} (h : n.toNat = d.val) :
    (s.beginRender n).unsent = (List.finRange 25).map (fun k => glyphWord s.cfg d (indexMap k)) := by
  have hn : n.toNat < 10 := by omega
  have hd : digitOf n = some d := by rw [digitOf_of_lt hn]; exact congrArg some (Fin.ext h)
  rw [State.unsent_of_stream (by simp)]
  simp [State.currentPass, hd, passWords, passWord]

/-! ### Executing a command -/

theorem whenReady_of_ready {s t : State} {f : State → State} (hr : s.cmdReady = true) (h : whenReady s f = .next t) :
    t = f s := by
  simpa [whenReady, hr] using h.symm

@[simp] theorem whenClaimed_unsent (f : State → State) (s : State) :
    (whenClaimed f s).unsent = if s.claimed then (f s).unsent else [] := by
  unfold whenClaimed
  split <;> rfl

/-- The words left to push after a command is accepted are those the text of 41_commands.md promises for it. -/
theorem exec_unsent {i : Instr} {s t : State} (hr : s.cmdReady = true) (h : exec i s = .next t) :
    t.unsent = commandPass i s := by
  have idle : s.unsent = [] := State.unsent_of_ready hr
  cases i with
  | nop =>
    unfold exec execNop at h
    obtain rfl := whenReady_of_ready hr h
    exact idle
  | init =>
    unfold exec execInit at h
    obtain rfl := whenReady_of_ready hr h
    cases hc : s.claimed <;> cases hk : s.claimOk <;> simp [commandPass, hc, hk]
  | clear =>
    unfold exec execClear at h
    obtain rfl := whenReady_of_ready hr h
    simp [commandPass]
  | render d =>
    unfold exec execRender at h
    obtain rfl := whenReady_of_ready hr h
    by_cases hd : d.toNat ≤ 9
    · have hn := renderDigit_of_le hd
      obtain ⟨hdig, -⟩ := renderDigit_le hn
      simp only [whenClaimed_unsent, hn, State.beginRender_unsent (d := ⟨d.toNat, by omega⟩) hdig]
      simp [commandPass, Nat.lt_succ_iff, hd]
    · simp [commandPass, Nat.lt_succ_iff, hd, renderDigit_of_gt (d := d) (by omega)]
  | char c =>
    unfold exec execChar at h
    obtain rfl := whenReady_of_ready hr h
    cases hn : charDigit c with
    | some n =>
      obtain ⟨hc, hdig⟩ := charDigit_eq_some hn
      simp [commandPass, hc, State.beginRender_unsent (d := ⟨c.toNat - 0x30, by omega⟩) hdig]
    | none =>
      have hc := charDigit_eq_none hn
      cases hm : s.mact <;> simp [commandPass, hc, hm, idle]

/-- A command moves no word: it delivers none and queues none. -/
theorem ExecEffect.wire_txq {i : Instr} {s t : State} (e : ExecEffect i s t) : t.wire = s.wire ∧ t.txq = s.txq := by
  cases e <;> exact ⟨rfl, rfl⟩

/-- Every command's pass is a whole frame or nothing. -/
theorem commandPass_nil_or_length (i : Instr) (s : State) : commandPass i s = [] ∨ (commandPass i s).length = 25 := by
  cases i with
  | nop => exact .inl rfl
  | init => simp only [commandPass]; split <;> simp
  | clear => simp only [commandPass]; split <;> simp
  | render d => simp only [commandPass]; split_ifs <;> simp
  | char c => simp only [commandPass]; split_ifs <;> simp

/-! ### The accept step -/

/-- The word that an accept step would take (41_commands.md R110). -/
def State.readyOffer (s : State) : Option CmdWord := if s.cmdReady then s.offers.head? else none

/-- The pass of the word accepted, if one is. -/
def acceptedPass (word : Option CmdWord) (s : State) : List Color :=
  match word with
  | none => []
  | some w =>
    match decode w with
    | .ok i => commandPass i s
    | .error _ => []

theorem State.stepPass_eq (s : State) : s.stepPass = acceptedPass s.acceptsNow s := rfl

@[simp] theorem acceptedPass_none (s : State) : acceptedPass none s = [] := rfl

theorem acceptedPass_command {w : CmdWord} {i : Instr} (hd : decode w = .ok i) (s : State) :
    acceptedPass (some w) s = commandPass i s := by
  simp [acceptedPass, hd]

theorem acceptedPass_illegal {w : CmdWord} {r : Reject} (hd : decode w = .error r) (s : State) :
    acceptedPass (some w) s = [] := by
  simp [acceptedPass, hd]

theorem commandPass_withOffers (i : Instr) (s : State) (ws : List CmdWord) :
    commandPass i (s.withOffers ws) = commandPass i s := by
  cases i <;> rfl

theorem acceptedPass_withTurns (word : Option CmdWord) (s : State) (ts : List Turn) :
    acceptedPass word (s.withTurns ts) = acceptedPass word s := by
  have hcmd : ∀ i, commandPass i (s.withTurns ts) = commandPass i s := by intro i; cases i <;> rfl
  simp only [acceptedPass, hcmd]

theorem State.readyOffer_of_not_ready {s : State} (hr : s.cmdReady = false) : s.readyOffer = none := by
  simp [State.readyOffer, hr]

theorem State.readyOffer_of_offers {s : State} {w : CmdWord} {rest : List CmdWord} (hr : s.cmdReady = true)
    (ho : s.offers = w :: rest) : s.readyOffer = some w := by
  simp [State.readyOffer, hr, ho]

theorem State.promised_of_ready {s : State} (hr : s.cmdReady = true) : s.promised = s.wire ++ s.txq := by
  simp [State.promised, State.unsent_of_ready hr]

theorem AcceptEffect.promised {s t : State} (e : AcceptEffect s t) :
    t.promised = s.promised ++ acceptedPass s.readyOffer s := by
  cases e with
  | none idle =>
    have hnone : s.readyOffer = Option.none := by
      rcases idle with ho | hr
      · simp [State.readyOffer, ho]
      · exact State.readyOffer_of_not_ready hr
    simp [hnone]
  | illegal w rest r ready offer rejected =>
    rw [State.readyOffer_of_offers ready offer, acceptedPass_illegal rejected, State.promised_of_ready ready]
    simp [State.promised]
  | command w rest i t ready offer decoded effect runs =>
    obtain ⟨hwire, htxq⟩ := effect.wire_txq
    have hunsent : t.unsent = commandPass i s :=
      (exec_unsent (s := s.withOffers rest) ready runs).trans (commandPass_withOffers i s rest)
    rw [State.readyOffer_of_offers ready offer, acceptedPass_command decoded, State.promised_of_ready ready,
      State.promised, hwire, htxq, hunsent]
    rfl

theorem accept_promised {s t : State} (h : accept s = .next t) :
    t.promised = s.promised ++ acceptedPass s.readyOffer s := by
  obtain ⟨u, hu, effect⟩ := accept_effect s
  rw [hu] at h
  cases h
  exact effect.promised

/-! ### Push and drain -/

/-- The word a push appends is the one in slot K of the pass. -/
theorem State.currentPass_of_nextWord {s : State} {x : Color} (h : s.nextWord = .ok x) :
    s.currentPass[s.k.toNat]? = some x := by
  unfold State.nextWord at h
  split at h
  · cases h
  · next k hk =>
    have hpos := slotOf_eq_some hk
    split at h
    · next hz => cases h; simp [State.currentPass, passWords, passWord, hz, hpos]
    · next d hg hd => cases h; simp [State.currentPass, passWords, hg, hd, hpos]
    · cases h

theorem State.unsent_of_nextWord {s : State} {x : Color} (hst : s.st = .stream) (h : s.nextWord = .ok x) :
    s.unsent = x :: s.currentPass.drop (s.k.toNat + 1) := by
  obtain ⟨hlt, hx⟩ := List.getElem?_eq_some_iff.mp (State.currentPass_of_nextWord h)
  rw [State.unsent_of_stream hst, List.drop_eq_getElem_cons hlt, hx]

/-- After a push the pass goes on behind slot K; after slot 24 nothing is left of it. -/
theorem State.advancePass_unsent {s : State} (hst : s.st = .stream) (hk : s.k.toNat ≤ 24) :
    s.advancePass.unsent = s.currentPass.drop (s.k.toNat + 1) := by
  by_cases hlast : s.k.toNat = 24
  · rw [State.unsent_of_not_stream (by simp [hlast]), hlast]
    exact (List.drop_eq_nil_of_le (passWords_length _ _ _).le).symm
  · have hnext : (s.k + 1#5).toNat = s.k.toNat + 1 := by bv_omega
    rw [State.unsent_of_stream (by simp [hlast, hst]), State.advancePass_k, if_neg hlast, hnext]
    rfl

theorem push_promised {s t : State} (h : push s = .next t) : t.promised = s.promised := by
  rcases push_cases h with ⟨-, rfl⟩ | ⟨x, hp, hx, rfl⟩
  · rfl
  · obtain ⟨hst, -⟩ := s.pushEnabled_iff.mp hp
    have hk : s.k.toNat ≤ 24 := by
      obtain ⟨hlt, -⟩ := List.getElem?_eq_some_iff.mp (State.currentPass_of_nextWord hx)
      rw [State.currentPass, passWords_length] at hlt
      omega
    have hrest : (s.txPush x).advancePass.unsent = s.currentPass.drop (s.k.toNat + 1) :=
      State.advancePass_unsent (s := s.txPush x) hst hk
    simp [State.promised, hrest, State.unsent_of_nextWord hst hx]

theorem drain_promised {s t : State} (h : drain s = .next t) : t.promised = s.promised := by
  rcases drain_cases h with ⟨-, rfl⟩ | ⟨x, rest, i, hq, -, rfl⟩
  · rfl
  · have hunsent : (s.txPop.stripWrite i x).unsent = s.unsent := rfl
    simp [State.promised, hunsent, hq]

/-! ### Steps -/

theorem sequencerStep_promised {s t : State} (h : sequencerStep s = .next t) :
    t.promised = s.promised ++ acceptedPass s.readyOffer s := by
  unfold sequencerStep at h
  split at h
  · exact accept_promised h
  · exact accept_promised h
  · next hst =>
    rw [State.readyOffer_of_not_ready (s.cmdReady_eq_false_iff.mpr (.inl hst)), push_promised h]
    simp
  · next hst =>
    cases h
    rw [State.readyOffer_of_not_ready (s.cmdReady_eq_false_iff.mpr (.inr hst))]
    simp

theorem freeTurn_promised {s t : State} (hturns : s.turns = []) (h : freeTurn s = .next t) :
    t.promised = s.promised ++ acceptedPass s.acceptsNow s := by
  unfold freeTurn at h
  split at h
  · next hp => simp [push_promised h, State.acceptsNow, hturns, hp]
  · next hp =>
    split at h
    · next hd => simp [drain_promised h, State.acceptsNow, hturns, hd]
    · next hd =>
      have hready : s.acceptsNow = s.readyOffer := by simp [State.acceptsNow, State.readyOffer, hturns, hp, hd]
      rw [hready]
      exact accept_promised h

theorem State.acceptsNow_of_sequencer {s : State} {ts : List Turn} (hturns : s.turns = .sequencer :: ts) :
    s.acceptsNow = s.readyOffer := by
  simp [State.acceptsNow, State.readyOffer, hturns]

theorem State.stepPass_of_other_turn {s : State} {turn : Turn} {ts : List Turn} (hturns : s.turns = turn :: ts)
    (hother : turn ≠ .sequencer) : s.stepPass = [] := by
  have hnone : s.acceptsNow = none := by simp [State.acceptsNow, hturns, hother]
  rw [State.stepPass_eq, hnone, acceptedPass_none]

/-- A step that is not a reset adds to the promised words exactly the pass of the command it accepts. It is read off
`nextTurn` and not off `step_cases`, which does not say that a step without effect accepted nothing. -/
theorem step_promised {s t : State} (hreset : s.turns.head? ≠ some .hostReset) (h : step s = .next t) :
    t.promised = s.promised ++ s.stepPass := by
  unfold step nextTurn at h
  split at h
  · next hturns => exact freeTurn_promised hturns h
  · next turn ts hturns =>
    by_cases hseq : turn = .sequencer
    · subst hseq
      rw [State.stepPass_eq, State.acceptsNow_of_sequencer hturns, ← acceptedPass_withTurns _ s ts]
      exact sequencerStep_promised (s := s.withTurns ts) h
    · rw [State.stepPass_of_other_turn hturns hseq, List.append_nil]
      cases turn with
      | sequencer => exact absurd rfl hseq
      | hostReset => simp [hturns] at hreset
      | serializer => exact drain_promised (s := s.withTurns ts) h
      | hostOffer w => cases h; rfl
      | hostReadStatus => cases h; rfl
      | platformClaim ok => cases h; rfl

/-! ### Turns -/

theorem ExecEffect.turns {i : Instr} {s t : State} (e : ExecEffect i s t) : t.turns = s.turns := by
  cases e <;> rfl

theorem AcceptEffect.turns {s t : State} (e : AcceptEffect s t) : t.turns = s.turns := by
  cases e with
  | none => rfl
  | illegal => rfl
  | command w rest i t ready offer decoded effect => exact effect.turns

theorem StepEffect.turns {turn : Option Turn} {s t : State} (e : StepEffect turn s t) : t.turns = s.turns := by
  cases e with
  | accept t effect => exact effect.turns
  | _ => rfl

theorem step_turns {s t : State} (h : step s = .next t) : t.turns = s.turns.tail := by
  rcases step_cases h with ⟨ts, hturns, rfl⟩ | ⟨-, effect⟩
  · simp [hturns]
  · exact effect.turns

theorem step_keeps_noReset {s t : State} (hn : s.noReset = true) (h : step s = .next t) : t.noReset = true := by
  unfold State.noReset at hn ⊢
  rw [List.all_eq_true] at hn ⊢
  intro turn hturn
  rw [step_turns h] at hturn
  exact hn turn (List.mem_of_mem_tail hturn)

theorem State.head_ne_hostReset_of_noReset {s : State} (hn : s.noReset = true) :
    s.turns.head? ≠ some .hostReset := by
  intro hhead
  simpa using List.all_eq_true.mp hn _ (List.mem_of_head? hhead)

/-! ### Runs -/

theorem passesOver_succ {s u : State} (h : step s = .next u) (n : Nat) :
    passesOver (n + 1) s = s.stepPass ++ passesOver n u := by
  simp [passesOver, h]

/-- Over a run without a reset the promised words gain the passes of the accepted commands, in acceptance order. -/
theorem run_promised : ∀ (n : Nat) {s t : State}, s.noReset = true → run n s = .next t →
    t.promised = s.promised ++ passesOver n s := by
  intro n
  induction n with
  | zero =>
    intro s t _ h
    cases h
    simp [passesOver]
  | succ n ih =>
    intro s t hn h
    obtain ⟨u, hu, hrun⟩ := run_succ_inv h
    calc t.promised = u.promised ++ passesOver n u := ih (step_keeps_noReset hn hu) hrun
      _ = (s.promised ++ s.stepPass) ++ passesOver n u := by
          rw [step_promised (State.head_ne_hostReset_of_noReset hn) hu]
      _ = s.promised ++ passesOver (n + 1) s := by rw [passesOver_succ hu, List.append_assoc]

/-- A reset keeps the words delivered and discards those queued or still to be pushed (R180). -/
@[simp] theorem State.resetBlock_promised (s : State) : s.resetBlock.promised = s.wire := by
  simp [State.promised]

/-- Settles O42, by induction on the number of steps: each step appends the pass of the command it accepts. -/
theorem wireIsConcatenationOfPasses : Obligations.WireIsConcatenationOfPasses := by
  refine ⟨fun r t n hn hrun => ⟨?_, t.resetBlock_promised⟩, commandPass_nil_or_length⟩
  have hgain : t.promised = r.resetBlock.promised ++ passesOver n r.resetBlock := run_promised n hn hrun
  rwa [State.resetBlock_promised] at hgain

end Sys2Proof.Machine
end

section
/-! PROOFS. The decoder (30_encoding.md R74): which words pass the checks, that the words that decode are the encodings of
the commands, and how many of the 65536 words those are (R81). -/

namespace Sys2Proof

/-! ### The checks on the fields of a word -/

/-- The checks of R76, R77 and R78, on the fields cut out by arithmetic. -/
theorem wellFormed_splitWord_iff (w : CmdWord) :
    (splitWord w).wellFormed = true ↔
      w.toNat / 256 % 16 = 0 ∧ w.toNat / 4096 ≤ 4 ∧ (3 ≤ w.toNat / 4096 ∨ w.toNat % 256 = 0) := by
  simp [Cmd16.wellFormed, Cmd16.rsvZero, Cmd16.opDefined, Cmd16.argAllowed, splitWord, ← BitVec.toNat_inj,
    opField_toNat, rsvField_toNat, argField_toNat, and_assoc]

/-! ### What decodes -/

theorem Cmd16.exists_reject_of_not_wellFormed {c : Cmd16} (h : ¬c.wellFormed = true) : ∃ r, c.reject = some r :=
  Option.ne_none_iff_exists'.mp (mt c.reject_eq_none_iff.mp h)

theorem decode_of_wellFormed {w : CmdWord} {i : Instr} (hw : (splitWord w).wellFormed = true)
    (hi : instrOf (opField w) (argField w) = some i) : decode w = .ok i := by
  simp [decode, (splitWord w).reject_eq_none_iff.mpr hw, hi]

theorem decode_of_not_wellFormed {w : CmdWord} (h : ¬(splitWord w).wellFormed = true) : ∃ r, decode w = .error r := by
  obtain ⟨r, hr⟩ := Cmd16.exists_reject_of_not_wellFormed h
  exact ⟨r, by simp [decode, hr]⟩

theorem wellFormed_and_instrOf_of_decode {w : CmdWord} {i : Instr} (h : decode w = .ok i) :
    (splitWord w).wellFormed = true ∧ instrOf (opField w) (argField w) = some i := by
  have hw : (splitWord w).wellFormed = true := by
    by_contra hbad
    obtain ⟨r, hr⟩ := decode_of_not_wellFormed hbad
    simp [hr] at h
  refine ⟨hw, ?_⟩
  cases hi : instrOf (opField w) (argField w) with
  | none => simp [decode, (splitWord w).reject_eq_none_iff.mpr hw, hi] at h
  | some j =>
    rw [decode_of_wellFormed hw hi] at h
    simpa using h

/-! ### Words that decode are encodings -/

theorem Instr.fields_wellFormed (i : Instr) : i.fields.wellFormed = true := by cases i <;> rfl

theorem instrOf_op_arg (i : Instr) : instrOf i.op i.arg = some i := by cases i <;> rfl

/-- The command that OP names keeps the operand where it takes one (R72). -/
theorem op_arg_of_instrOf {op : BitVec 4} {arg : BitVec 8} {i : Instr} (h : instrOf op arg = some i) :
    i.op = op ∧ i.arg = if 3 ≤ op.toNat then arg else 0#8 := by
  unfold instrOf at h
  split at h <;> cases h
  all_goals
    rename_i hop
    exact ⟨BitVec.eq_of_toNat_eq hop.symm, by rw [hop]; rfl⟩

/-- A well-formed word holds no bit beyond the fields of the command its OP names. -/
theorem Cmd16.fields_of_instrOf {c : Cmd16} {i : Instr} (hc : c.wellFormed = true)
    (hi : instrOf c.op c.arg = some i) : i.fields = c := by
  obtain ⟨hop, harg⟩ := op_arg_of_instrOf hi
  simp only [Cmd16.wellFormed, Cmd16.rsvZero, Cmd16.argAllowed, Bool.and_eq_true, Bool.or_eq_true, beq_iff_eq,
    decide_eq_true_eq] at hc
  obtain ⟨⟨hrsv, -⟩, hallowed⟩ := hc
  have hargs : i.arg = c.arg := by
    rw [harg]
    split
    · rfl
    · exact (hallowed.resolve_left ‹_›).symm
  rw [Instr.fields, hop, hargs, ← hrsv]

/-- The decoder and the encoder undo each other (R72, R74). -/
theorem decode_eq_ok_iff (w : CmdWord) (i : Instr) : decode w = .ok i ↔ encode i = w := by
  constructor
  · intro h
    obtain ⟨hw, hi⟩ := wellFormed_and_instrOf_of_decode h
    have hfields : i.fields = splitWord w := Cmd16.fields_of_instrOf hw hi
    rw [encode, hfields, joinFields_splitWord]
  · rintro rfl
    have hsplit : splitWord (encode i) = i.fields := splitWord_joinFields i.fields
    apply decode_of_wellFormed
    · rw [hsplit, i.fields_wellFormed]
    · have hop : opField (encode i) = i.op := congrArg Cmd16.op hsplit
      have harg : argField (encode i) = i.arg := congrArg Cmd16.arg hsplit
      rw [hop, harg, instrOf_op_arg]

theorem encode_injective : Function.Injective encode := by
  intro i j h
  have hi := (decode_eq_ok_iff (encode i) i).mpr rfl
  have hj := (decode_eq_ok_iff (encode i) j).mpr h.symm
  simpa [hi] using hj

/-! ### The list of all commands -/

/-- The values of ARG. -/
def allArgs : List (BitVec 8) := (List.finRange (2 ^ 8)).map BitVec.ofFin

theorem mem_allArgs (a : BitVec 8) : a ∈ allArgs := List.mem_map.mpr ⟨a.toFin, List.mem_finRange _, rfl⟩

theorem allArgs_nodup : allArgs.Nodup :=
  (List.nodup_finRange _).map fun _ _ h => congrArg BitVec.toFin h

@[simp] theorem allArgs_length : allArgs.length = 256 := by simp [allArgs]

/-- Every command, once (30_encoding.md R72). -/
def allInstrs : List Instr :=
  .nop :: .init :: .clear :: (allArgs.map .render ++ allArgs.map .char)

theorem mem_allInstrs (i : Instr) : i ∈ allInstrs := by
  cases i <;> simp [allInstrs, mem_allArgs]

theorem allInstrs_nodup : allInstrs.Nodup := by
  have hrender : (allArgs.map Instr.render).Nodup := allArgs_nodup.map fun _ _ h => Instr.render.inj h
  have hchar : (allArgs.map Instr.char).Nodup := allArgs_nodup.map fun _ _ h => Instr.char.inj h
  simp [allInstrs, List.nodup_append, hrender, hchar]

theorem countP_allInstrs (p : Instr → Bool) :
    allInstrs.countP p =
      (p .nop).toNat + (p .init).toNat + (p .clear).toNat + allArgs.countP (fun d => p (.render d)) +
        allArgs.countP (fun c => p (.char c)) := by
  simp only [allInstrs, List.countP_cons, List.countP_append, List.countP_map, Function.comp_def, Bool.toNat,
    Bool.cond_eq_ite]
  omega

/-! ### Counting words -/

/-- The words that decode to a command with the property `p`. -/
def wordsOf (p : Instr → Bool) : Finset (Fin 65536) :=
  Finset.univ.filter fun n => (decode (BitVec.ofFin n)).toOption.any p

theorem mem_wordsOf_iff {p : Instr → Bool} {n : Fin 65536} :
    n ∈ wordsOf p ↔ ∃ i, p i = true ∧ (encode i).toFin = n := by
  have htoOption : ∀ x : Except Reject Instr, x.toOption.any p = true ↔ ∃ i, p i = true ∧ x = .ok i := by
    rintro (_ | _) <;> simp [Except.toOption]
  simp [wordsOf, htoOption, decode_eq_ok_iff, ← BitVec.toFin_inj]

theorem card_wordsOf (p : Instr → Bool) : (wordsOf p).card = allInstrs.countP p := by
  have himage : wordsOf p = (allInstrs.filter p).toFinset.image fun i => (encode i).toFin := by
    ext n
    simp [mem_wordsOf_iff, mem_allInstrs]
  have hinj : Function.Injective fun i => (encode i).toFin := fun _ _ h => encode_injective (BitVec.toFin_inj.mp h)
  rw [himage, Finset.card_image_of_injective _ hinj, List.toFinset_card_of_nodup (allInstrs_nodup.filter p),
    List.countP_eq_length_filter]

end Sys2Proof

namespace Sys2Proof.Machine

/-! ### Illegal words -/

theorem acceptWord_illegal {w : CmdWord} {r : Reject} {s : State} (hd : decode w = .error r)
    (hr : s.cmdReady = true) : acceptWord w s = .next (s.raiseFault .illegalCmd) := by
  simp [acceptWord, hd, whenReady_next, hr]

/-- Settles O3: each of the three clauses fails one of the decoder's checks. -/
theorem malformedWordsAreIllegal : Obligations.MalformedWordsAreIllegal := by
  intro w hw
  have hbad : ¬(splitWord w).wellFormed = true := by
    rw [wellFormed_splitWord_iff]
    omega
  obtain ⟨r, hr⟩ := decode_of_not_wellFormed hbad
  exact ⟨⟨r, hr⟩, fun s hs => acceptWord_illegal hr hs⟩

/-! ### The counts of R81 -/

theorem render_digit_iff_word_range {w : CmdWord} {d : BitVec 8} (h : decode w = .ok (.render d)) :
    d.toNat ≤ 9 ↔ 0x3000 ≤ w.toNat ∧ w.toNat ≤ 0x3009 := by
  have hword : w.toNat = 3 * 4096 + d.toNat := by
    rw [← (decode_eq_ok_iff w _).mp h, encode_toNat]
    rfl
  omega

theorem countP_allArgs_digit : allArgs.countP (fun d => decide (d.toNat ≤ 9)) = 10 := by
  have hIic : (Finset.univ.filter fun n : Fin (2 ^ 8) => n.val ≤ 9) = Finset.Iic 9 := by
    ext n
    simp [Fin.le_def]
  have hcard : (Finset.univ.filter fun n : Fin (2 ^ 8) => n.val ≤ 9).card = 10 := by rw [hIic, Fin.card_Iic]; rfl
  rw [allArgs, List.countP_map, List.countP_eq_length_filter]
  exact hcard

theorem card_commandWords : (wordsOf fun _ => true).card = 515 := by
  simp [card_wordsOf, countP_allInstrs]

theorem card_illegalWords :
    (Finset.univ.filter fun n : Fin 65536 => (decode (BitVec.ofFin n)).toOption = none).card = 65021 := by
  have hcompl : (Finset.univ.filter fun n : Fin 65536 => (decode (BitVec.ofFin n)).toOption = none) =
      (wordsOf fun _ => true)ᶜ := by
    ext n
    simp [wordsOf]
  rw [hcompl, Finset.card_compl, Fintype.card_fin, card_commandWords]

/-- Settles O4: the words of commands are the encodings, so counting words is counting commands, and that is a sum over
the rows of the opcode table. -/
theorem commandWordCounts : Obligations.CommandWordCounts := by
  unfold Obligations.CommandWordCounts
  intro words
  have hwords : ∀ p, words p = allInstrs.countP p := card_wordsOf
  have hsingle : ∀ i, words (fun j => j == i) = 1 := fun i =>
    (hwords _).trans (List.count_eq_one_of_mem allInstrs_nodup (mem_allInstrs i))
  refine ⟨card_commandWords, hsingle .nop, hsingle .init, hsingle .clear, ?_, ?_,
    fun w d => render_digit_iff_word_range, ?_, card_illegalWords⟩
  · simp [hwords, countP_allInstrs, Instr.op]
  · simp [hwords, countP_allInstrs, Instr.op]
  · calc words _ = allArgs.countP (fun d => decide ((Instr.render d).arg.toNat ≤ 9)) := by
          simp [hwords, countP_allInstrs, Instr.op]
      _ = 10 := countP_allArgs_digit

end Sys2Proof.Machine
end

section
/-! PROOFS. The IndexMapper (40_index_mapper.md). Map in rows and columns: row r goes to row 4 − r, the column is
reversed in an even row and kept in an odd one. Row 4 − r has the parity of r, so Map undoes itself (R106). -/

namespace Sys2Proof.Machine

theorem indexMap_val (i : Slot) : (indexMap i).val = indexMapClosed i := by
  unfold indexMap indexMapClosed
  by_cases even : i.val / 5 % 2 = 0
  · simp only [even, if_true]
    omega
  · simp only [even, if_false]
    omega

theorem indexMap_row (i : Slot) : (indexMap i).val / 5 = 4 - i.val / 5 := by
  rw [indexMap_val, indexMapClosed]
  split <;> omega

theorem indexMap_col_of_even {i : Slot} (even : i.val / 5 % 2 = 0) : (indexMap i).val % 5 = 4 - i.val % 5 := by
  rw [indexMap_val, indexMapClosed, if_pos even]
  omega

theorem indexMap_col_of_odd {i : Slot} (odd : ¬i.val / 5 % 2 = 0) : (indexMap i).val % 5 = i.val % 5 := by
  rw [indexMap_val, indexMapClosed, if_neg odd]
  omega

theorem indexMap_row_even_iff (i : Slot) : (indexMap i).val / 5 % 2 = 0 ↔ i.val / 5 % 2 = 0 := by
  rw [indexMap_row]
  omega

theorem slot_ext_row_col {i j : Slot} (row : i.val / 5 = j.val / 5) (col : i.val % 5 = j.val % 5) : i = j :=
  Fin.ext (by omega)

theorem indexMap_involutive : Function.Involutive indexMap := by
  intro i
  apply slot_ext_row_col
  · rw [indexMap_row, indexMap_row]
    omega
  · by_cases even : i.val / 5 % 2 = 0
    · rw [indexMap_col_of_even ((indexMap_row_even_iff i).mpr even), indexMap_col_of_even even]
      omega
    · rw [indexMap_col_of_odd (mt (indexMap_row_even_iff i).mp even), indexMap_col_of_odd even]

/-- R107: only row 2 is its own opposite row; it is even, so its column is reversed, and only column 2 stays. -/
theorem indexMap_eq_self_iff (i : Slot) : indexMap i = i ↔ i = 12 := by
  constructor
  · intro fixed
    have row : i.val / 5 = 2 := by
      have opposite := indexMap_row i
      rw [fixed] at opposite
      omega
    have col : i.val % 5 = 2 := by
      have reversed := indexMap_col_of_even (i := i) (by rw [row])
      rw [fixed] at reversed
      omega
    exact slot_ext_row_col row col
  · rintro rfl
    rfl

/-- Settles O7: an involution is a bijection, and rows and columns decide the rest. -/
theorem indexMapIsAnInvolution : Obligations.IndexMapIsAnInvolution :=
  ⟨indexMap_val, indexMap_involutive.bijective, indexMap_involutive, indexMap_eq_self_iff⟩

end Sys2Proof.Machine
end

section
/-! PROOFS. The commands (41_commands.md), one at a time: their faults, and that CHAR acts as RENDER, as CLEAR or not at
all. Each effect is read through the two checks that every command shares, `whenReady` and `whenClaimed`. -/

namespace Sys2Proof.Machine

/-! ### The shared checks -/

theorem whenReady_of_cmdReady {s : State} (hr : s.cmdReady = true) (f : State → State) :
    whenReady s f = .next (f s) := by
  rw [whenReady_next, if_pos hr]

theorem whenReady_congr {s : State} {f g : State → State} (h : f s = g s) : whenReady s f = whenReady s g := by
  rw [whenReady_next, whenReady_next, h]

theorem whenClaimed_of_claimed {s : State} (hc : s.claimed = true) (f : State → State) : whenClaimed f s = f s :=
  if_pos hc

theorem whenClaimed_of_unclaimed {s : State} (hc : s.claimed = false) (f : State → State) :
    whenClaimed f s = s.raiseFault .notInit := by
  simp [whenClaimed, hc]

theorem whenClaimed_congr {s : State} {f g : State → State} (h : f s = g s) : whenClaimed f s = whenClaimed g s := by
  simp only [whenClaimed, h]

theorem whenReady_whenClaimed_of_unclaimed {s : State} (hr : s.cmdReady = true) (hc : s.claimed = false)
    (f : State → State) : whenReady s (whenClaimed f) = .next (s.raiseFault .notInit) := by
  rw [whenReady_of_cmdReady hr, whenClaimed_of_unclaimed hc]

theorem whenReady_whenClaimed_of_claimed {s : State} (hr : s.cmdReady = true) (hc : s.claimed = true)
    (f : State → State) : whenReady s (whenClaimed f) = .next (f s) := by
  rw [whenReady_of_cmdReady hr, whenClaimed_of_claimed hc]

/-! ### Faults -/

/-- Settles O16: REINIT is INIT's first check. -/
theorem secondInitFaults : Obligations.SecondInitFaults := by
  intro s hr hc
  rw [exec, execInit, whenReady_of_cmdReady hr, if_pos hc]
  rfl

/-- Settles O17: INIT reaches the check of `claim_ok` with CLAIMED = 0 only. -/
theorem failedClaimFaults : Obligations.FailedClaimFaults := by
  intro s hr hc hk
  rw [exec, execInit, whenReady_of_cmdReady hr, if_neg (by simp [hc]), if_neg (by simp [hk])]
  rfl

/-- Settles O18: CLEAR, RENDER and CHAR share one lifecycle check. -/
theorem commandsBeforeInitFault : Obligations.CommandsBeforeInitFault := by
  intro s hr hc
  exact ⟨whenReady_whenClaimed_of_unclaimed hr hc _, fun _ => whenReady_whenClaimed_of_unclaimed hr hc _,
    fun _ => whenReady_whenClaimed_of_unclaimed hr hc _⟩

theorem exec_render_of_digit {d : BitVec 8} {n : BitVec 4} (h : renderDigit d = some n) (s : State) :
    exec (.render d) s = whenReady s (whenClaimed fun s => s.beginRender n) := by
  rw [exec, execRender, h]

theorem exec_render_of_no_digit {d : BitVec 8} (h : renderDigit d = none) (s : State) :
    exec (.render d) s = whenReady s (whenClaimed fun s => s.raiseFault .badDigit) := by
  rw [exec, execRender, h]

theorem exec_render_of_bad_digit {s : State} {d : BitVec 8} (hr : s.cmdReady = true) (hc : s.claimed = true)
    (hd : 9 < d.toNat) : exec (.render d) s = .next (s.raiseFault .badDigit) := by
  rw [exec_render_of_no_digit (renderDigit_of_gt hd), whenReady_whenClaimed_of_claimed hr hc]

/-- Settles O19: the ROM is part of the state the fault is raised in, and the digit alone decides. -/
theorem badDigitFaults : Obligations.BadDigitFaults := by
  intro s d rom hr hc hd
  exact exec_render_of_bad_digit (s := { s with cfg := { s.cfg with rom := rom } }) hr hc hd

/-! ### CHAR as RENDER and as CLEAR -/

theorem charDigit_of_digit {c : BitVec 8} (h : 0x30 ≤ c.toNat ∧ c.toNat ≤ 0x39) :
    charDigit c = some (BitVec.ofNat 4 (c.toNat - 0x30)) := by
  simp [charDigit, isDigitChar, h]

theorem charDigit_of_not_digit {c : BitVec 8} (h : ¬(0x30 ≤ c.toNat ∧ c.toNat ≤ 0x39)) : charDigit c = none := by
  simpa [charDigit, isDigitChar] using h

theorem exec_char_of_digit {c : BitVec 8} {n : BitVec 4} (h : charDigit c = some n) (s : State) :
    exec (.char c) s = whenReady s (whenClaimed fun s => s.beginRender n) := by
  rw [exec, execChar, h]

theorem renderDigit_sub_eq_charDigit {c : BitVec 8} (h : 0x30 ≤ c.toNat ∧ c.toNat ≤ 0x39) :
    renderDigit (c - 0x30#8) = charDigit c := by
  have hsub : (c - 0x30#8).toNat = c.toNat - 0x30 := by bv_omega
  rw [renderDigit_of_le (by omega), charDigit_of_digit h, hsub]

/-- Settles O13: the two commands form the same DIG value. -/
theorem charDigitActsAsRender : Obligations.CharDigitActsAsRender := by
  intro s c hlo hhi
  have hchar := charDigit_of_digit ⟨hlo, hhi⟩
  have hrender := (renderDigit_sub_eq_charDigit ⟨hlo, hhi⟩).trans hchar
  rw [exec_char_of_digit hchar, exec_render_of_digit hrender]

theorem exec_clear_of_claimed {s : State} (hr : s.cmdReady = true) (hc : s.claimed = true) :
    exec .clear s = .next s.beginClear :=
  whenReady_whenClaimed_of_claimed hr hc _

/-- What CHAR of a non-digit does in a state depends on MACT alone. -/
theorem exec_char_of_not_digit {c : BitVec 8} (h : ¬(0x30 ≤ c.toNat ∧ c.toNat ≤ 0x39)) (s : State) :
    exec (.char c) s = whenReady s (whenClaimed fun s => if s.mact then s.beginClear else s) := by
  rw [exec, execChar, charDigit_of_not_digit h]

theorem exec_char_eq_exec_clear {s : State} {c : BitVec 8} (h : ¬(0x30 ≤ c.toNat ∧ c.toNat ≤ 0x39))
    (hm : s.mact = true) : exec (.char c) s = exec .clear s := by
  rw [exec_char_of_not_digit h]
  exact whenReady_congr (whenClaimed_congr (if_pos hm))

/-- Settles O14: with MACT = 1 the two commands run the same effect behind the same checks. -/
theorem charNonDigitActsAsClear : Obligations.CharNonDigitActsAsClear := by
  intro s c h hm
  have hclear := exec_char_eq_exec_clear h hm
  exact ⟨hclear, fun hr hc => hclear.trans (exec_clear_of_claimed hr hc)⟩

/-! ### MACT -/

/-- What `f` does to a state does not depend on MACT, but perhaps for MACT itself. -/
def MactBlind (f : State → State) : Prop := ∀ (s : State) (b : Bool), (f (s.setMact b)).setMact (f s).mact = f s

theorem mactBlind_id : MactBlind fun s => s := fun _ _ => rfl

theorem mactBlind_raiseFault (c : FCode) : MactBlind fun s => s.raiseFault c := fun _ _ => rfl

theorem mactBlind_beginClear : MactBlind fun s => s.beginClear := fun _ _ => rfl

theorem mactBlind_claim_beginClear : MactBlind fun s => s.claim.beginClear := fun _ _ => rfl

theorem mactBlind_beginRender (n : BitVec 4) : MactBlind fun s => s.beginRender n := fun _ _ => rfl

/-- A choice by a flag that is not MACT keeps blindness. -/
theorem MactBlind.ite {p : State → Bool} {f g : State → State} (hp : ∀ s b, p (s.setMact b) = p s) (hf : MactBlind f)
    (hg : MactBlind g) : MactBlind fun s => if p s then f s else g s := by
  intro s b
  cases h : p s
  · simpa [hp, h] using hg s b
  · simpa [hp, h] using hf s b

theorem MactBlind.whenClaimed {f : State → State} (hf : MactBlind f) : MactBlind (whenClaimed f) :=
  .ite (p := State.claimed) (fun _ _ => rfl) hf (mactBlind_raiseFault .notInit)

theorem MactBlind.whenReady {f : State → State} (hf : MactBlind f) {s t : State} (b : Bool)
    (h : whenReady s f = .next t) : ∃ t', whenReady (s.setMact b) f = .next t' ∧ t'.setMact t.mact = t := by
  cases h
  exact ⟨_, rfl, MactBlind.ite (p := State.cmdReady) (fun _ _ => rfl) hf mactBlind_id s b⟩

theorem exec_render_mact {s t : State} {d : BitVec 8} (b : Bool) (h : exec (.render d) s = .next t) :
    ∃ t', exec (.render d) (s.setMact b) = .next t' ∧ t'.setMact t.mact = t := by
  cases hd : renderDigit d with
  | some n =>
    rw [exec_render_of_digit hd] at h ⊢
    exact (mactBlind_beginRender n).whenClaimed.whenReady b h
  | none =>
    rw [exec_render_of_no_digit hd] at h ⊢
    exact (mactBlind_raiseFault .badDigit).whenClaimed.whenReady b h

theorem exec_char_of_mact_false {s : State} {c : BitVec 8} (h : ¬(0x30 ≤ c.toNat ∧ c.toNat ≤ 0x39))
    (hm : s.mact = false) (hr : s.cmdReady = true) (hc : s.claimed = true) : exec (.char c) s = .next s := by
  rw [exec_char_of_not_digit h, whenReady_whenClaimed_of_claimed hr hc, if_neg (by simp [hm])]

/-- Settles O15: every command but CHAR of a non-digit is blind to MACT, and CHAR of a digit is a RENDER. -/
theorem mactMattersOnlyToNonDigitChar : Obligations.MactMattersOnlyToNonDigitChar := by
  refine ⟨fun s c => exec_char_of_mact_false, fun s t i b hchar h => ?_⟩
  cases i with
  | nop => exact mactBlind_id.whenReady b h
  | init =>
    have inner : MactBlind fun s => if s.claimOk then s.claim.beginClear else s.raiseFault .claimFail :=
      .ite (p := State.claimOk) (fun _ _ => rfl) mactBlind_claim_beginClear (mactBlind_raiseFault .claimFail)
    exact (MactBlind.ite (p := State.claimed) (fun _ _ => rfl) (mactBlind_raiseFault .reinit) inner).whenReady b h
  | clear => exact mactBlind_beginClear.whenClaimed.whenReady b h
  | render d => exact exec_render_mact b h
  | char c =>
    obtain ⟨hlo, hhi⟩ := hchar c rfl
    rw [charDigitActsAsRender s c hlo hhi] at h
    rw [charDigitActsAsRender _ c hlo hhi]
    exact exec_render_mact b h

end Sys2Proof.Machine
end

section
/-! PROOFS. A pass that drains undisturbed (41_commands.md R120, R123). While no reset and no offer comes, the promised
words stay the same, and each slot of STRIP holds the newest word delivered to it. Once the pass is pushed and TXQ is
empty every promised word is on WIRE and W is 0, so STRIP shows the last 25 words of WIRE: the pass. -/

namespace Sys2Proof.Machine

/-! ### Undisturbed steps -/

theorem State.undisturbed_iff (s : State) :
    s.undisturbed = true ↔ s.offers = [] ∧ ∀ turn ∈ s.turns, turn ≠ .hostReset ∧ ∀ w, turn ≠ .hostOffer w := by
  rw [State.undisturbed, Bool.and_eq_true, List.isEmpty_iff, List.all_eq_true]
  refine and_congr_right fun _ => forall₂_congr fun turn _ => ?_
  cases turn <;> simp

theorem State.head_ne_hostReset_of_undisturbed {s : State} (h : s.undisturbed = true) :
    s.turns.head? ≠ some .hostReset := fun hhead =>
  ((s.undisturbed_iff.mp h).2 _ (List.mem_of_head? hhead)).1 rfl

theorem ExecEffect.offers {i : Instr} {s t : State} (e : ExecEffect i s t) : t.offers = s.offers := by
  cases e <;> rfl

theorem ExecEffect.keeps_undisturbed {i : Instr} {s t : State} (e : ExecEffect i s t) (h : s.undisturbed = true) :
    t.undisturbed = true := by
  rwa [State.undisturbed, e.offers, e.turns]

/-- Where nothing is offered the accept step does nothing. -/
theorem AcceptEffect.eq_of_offers_nil {s t : State} (e : AcceptEffect s t) (h : s.offers = []) : t = s := by
  cases e with
  | none => rfl
  | illegal w rest r ready offer => simp [h] at offer
  | command w rest i t ready offer => simp [h] at offer

theorem StepEffect.offers_nil {turn : Option Turn} {s t : State} (e : StepEffect turn s t) (h : s.offers = [])
    (hturn : ∀ w, turn ≠ some (.hostOffer w)) : t.offers = [] := by
  cases e with
  | offer w listed => exact absurd listed (hturn w)
  | accept t effect => rwa [effect.eq_of_offers_nil h]
  | _ => exact h

theorem step_keeps_undisturbed {s t : State} (h : s.undisturbed = true) (hs : step s = .next t) :
    t.undisturbed = true := by
  obtain ⟨hoffers, hturns⟩ := s.undisturbed_iff.mp h
  rw [State.undisturbed_iff, step_turns hs]
  refine ⟨?_, fun turn hmem => hturns turn (List.mem_of_mem_tail hmem)⟩
  rcases step_cases hs with ⟨ts, -, rfl⟩ | ⟨-, effect⟩
  · exact hoffers
  · exact effect.offers_nil hoffers fun w hhead => (hturns _ (List.mem_of_head? hhead)).2 w rfl

theorem State.acceptsNow_of_offers_nil {s : State} (h : s.offers = []) : s.acceptsNow = none := by
  unfold State.acceptsNow
  split <;> simp [h]

theorem step_promised_of_undisturbed {s t : State} (h : s.undisturbed = true) (hs : step s = .next t) :
    t.promised = s.promised := by
  rw [step_promised (State.head_ne_hostReset_of_undisturbed h) hs, State.stepPass_eq,
    State.acceptsNow_of_offers_nil (s.undisturbed_iff.mp h).1, acceptedPass_none, List.append_nil]

/-! ### What STRIP shows of WIRE -/

/-- How many words were delivered after the newest word of slot `j`: W is the slot of the next one. -/
def State.age (s : State) (j : Slot) : Nat := (s.w.toNat + 24 - j.val) % 25

/-- Every slot holds the newest word delivered to it, as far as it was delivered behind the first `b` words of WIRE. -/
def State.ShowsSince (b : Nat) (s : State) : Prop :=
  ∀ j : Slot, b + s.age j < s.wire.length → s.wire.reverse[s.age j]? = some s.strip[j]

theorem State.showsSince_wire_length (s : State) : s.ShowsSince s.wire.length := by
  intro j hlt
  omega

theorem State.stripWrite_w_toNat (s : State) (i : Slot) (x : Color) :
    (s.stripWrite i x).w.toNat = (i.val + 1) % 25 := by
  rw [State.stripWrite_w, BitVec.toNat_ofNat]
  omega

theorem State.stripWrite_age_self (s : State) (i : Slot) (x : Color) : (s.stripWrite i x).age i = 0 := by
  rw [State.age, State.stripWrite_w_toNat]
  omega

theorem State.stripWrite_age_of_ne {s : State} {i j : Slot} (x : Color) (hw : s.w.toNat = i.val) (hne : j ≠ i) :
    (s.stripWrite i x).age j = s.age j + 1 := by
  have hval : j.val ≠ i.val := Fin.val_ne_of_ne hne
  rw [State.age, State.age, State.stripWrite_w_toNat, hw]
  omega

theorem State.ShowsSince.stripWrite {b : Nat} {s : State} {i : Slot} (h : s.ShowsSince b) (hw : s.w.toNat = i.val)
    (x : Color) : (s.stripWrite i x).ShowsSince b := by
  intro j hlt
  by_cases hji : j = i
  · subst hji
    simp [State.stripWrite_age_self]
  · have hage := State.stripWrite_age_of_ne x hw hji
    have hold : b + s.age j < s.wire.length := by
      rw [hage, State.stripWrite_wire, List.length_append, List.length_singleton] at hlt
      omega
    have hval : i.val ≠ j.val := fun e => hji (Fin.ext e.symm)
    simpa [hage, hval] using h j hold

/-- Only a delivery touches STRIP, W and WIRE. -/
theorem StepEffect.keeps_showsSince {b : Nat} {turn : Option Turn} {s t : State} (e : StepEffect turn s t)
    (hoffers : s.offers = []) (h : s.ShowsSince b) : t.ShowsSince b := by
  cases e with
  | accept t effect => rwa [effect.eq_of_offers_nil hoffers]
  | drain x rest i queue position => exact State.ShowsSince.stripWrite (s := s.txPop) h position x
  | _ => exact h

/-! ### An undisturbed run -/

/-- What a run keeps while a pass drains: no disturbance to come, the invariants of R38, the promised words `p`, and
STRIP showing what was delivered behind the first `b` words of WIRE. -/
structure State.Draining (b : Nat) (p : List Color) (s : State) : Prop where
  undisturbed : s.undisturbed = true
  inv : s.Inv
  promised : s.promised = p
  shows : s.ShowsSince b

theorem step_keeps_draining {b : Nat} {p : List Color} (s t : State) (h : s.Draining b p) (hs : step s = .next t) :
    t.Draining b p where
  undisturbed := step_keeps_undisturbed h.undisturbed hs
  inv := step_keeps_inv h.inv hs
  promised := (step_promised_of_undisturbed h.undisturbed hs).trans h.promised
  shows := by
    rcases step_cases hs with ⟨ts, hturns, -⟩ | ⟨-, effect⟩
    · exact absurd (by simp [hturns]) (State.head_ne_hostReset_of_undisturbed h.undisturbed)
    · exact effect.keeps_showsSince (s.undisturbed_iff.mp h.undisturbed).1 h.shows

theorem State.promised_of_drained {s : State} (hst : s.st ≠ .stream) (hq : s.txq = []) : s.promised = s.wire := by
  simp [State.promised, State.unsent_of_not_stream hst, hq]

theorem State.Inv.w_of_drained {s : State} (h : s.Inv) (hst : s.st ≠ .stream) (hq : s.txq = []) : s.w.toNat = 0 := by
  have haligned := h.aligned
  have hposition := h.position
  rw [if_neg hst, hq, List.length_nil] at haligned
  omega

/-- With W = 0, STRIP is the last frame delivered, slot by slot. -/
theorem State.ShowsSince.last_frame {s : State} {before frame : List Color} {b : Nat} (h : s.ShowsSince b)
    (hw : s.w.toNat = 0) (hwire : s.wire = before ++ frame) (hlen : frame.length = 25) (hb : b ≤ before.length)
    (j : Slot) : frame[j.val]? = some s.strip[j] := by
  have hage : s.age j = 24 - j.val := by
    rw [State.age, hw]
    omega
  have hlt : s.age j < frame.length := by omega
  have hshown := h j (by rw [hwire, List.length_append]; omega)
  have hpos : frame.length - 1 - s.age j = j.val := by omega
  rwa [hwire, List.reverse_append, List.getElem?_append_left (by simpa using hlt), List.getElem?_reverse hlt, hpos]
    at hshown

/-- After a command is accepted and its pass has drained undisturbed, WIRE has gained the words queued before and then
the pass; and if the command has a pass, STRIP shows it. -/
theorem drained_after_exec {s s' t : State} {i : Instr} {n : Nat} (h : s.Inv) (hr : s.cmdReady = true)
    (hu : s.undisturbed = true) (he : exec i s = .next s') (hrun : run n s' = .next t) (hst : t.st ≠ .stream)
    (hq : t.txq = []) :
    t.wire = s.wire ++ s.txq ++ commandPass i s ∧
      ((commandPass i s).length = 25 → ∀ j : Slot, (commandPass i s)[j.val]? = some t.strip[j]) := by
  obtain ⟨u, hu', effect⟩ := exec_effect i s
  obtain rfl : s' = u := by simpa [he] using hu'
  obtain ⟨hwire, htxq⟩ := effect.wire_txq
  have hpromised : s'.promised = s.wire ++ s.txq ++ commandPass i s := by
    rw [State.promised, hwire, htxq, exec_unsent hr he]
  have hstart : s'.Draining s.wire.length (s.wire ++ s.txq ++ commandPass i s) :=
    ⟨effect.keeps_undisturbed hu, effect.keeps_inv h, hpromised, hwire ▸ s'.showsSince_wire_length⟩
  have hend := run_keeps step_keeps_draining n s' t hstart hrun
  have hall : t.wire = s.wire ++ s.txq ++ commandPass i s :=
    (State.promised_of_drained hst hq).symm.trans hend.promised
  exact ⟨hall, fun hlen j => hend.shows.last_frame (hend.inv.w_of_drained hst hq) hall hlen (by simp) j⟩

/-! ### The passes of RENDER, CLEAR and INIT -/

theorem commandPass_render {s : State} {d : BitVec 8} {g : Digit} (hc : s.claimed = true) (hd : d.toNat = g.val) :
    commandPass (.render d) s = (List.finRange 25).map (fun k => glyphWord s.cfg g (indexMap k)) := by
  have hlt : d.toNat < 10 := by omega
  have hg : (⟨d.toNat, hlt⟩ : Digit) = g := Fin.ext hd
  simp [commandPass, hlt, hc, hg]

theorem commandPass_clear {s : State} (hc : s.claimed = true) : commandPass .clear s = List.replicate 25 off :=
  if_pos hc

theorem commandPass_init {s : State} (hc : s.claimed = false) (hk : s.claimOk = true) :
    commandPass .init s = List.replicate 25 off := by
  simp [commandPass, hc, hk]

/-- Settles O43: slot Map(i) shows the word pushed for it, GLYPH[d][Map(Map(i))], and Map undoes itself. -/
theorem renderedFrameReachesStrip : Obligations.RenderedFrameReachesStrip := by
  intro s s' t d g n hinv hr hc hu hd he hrun hst hq
  obtain ⟨hwire, hstrip⟩ := drained_after_exec hinv hr hu he hrun hst hq
  rw [commandPass_render hc hd] at hwire hstrip
  refine ⟨fun i => ?_, hwire⟩
  have hslot := hstrip (by simp) (indexMap i)
  simpa [indexMap_involutive i] using hslot.symm

/-- Settles O44: both commands start the same pass of 25 zero words. -/
theorem clearedStripIsAllZero : Obligations.ClearedStripIsAllZero := by
  intro s s' t i n hinv hr hu hcmd he hrun hst hq
  have hpass : commandPass i s = List.replicate 25 0 := by
    rcases hcmd with ⟨rfl, hc⟩ | ⟨rfl, hc, hk⟩
    · exact commandPass_clear hc
    · exact commandPass_init hc hk
  obtain ⟨hwire, hstrip⟩ := drained_after_exec hinv hr hu he hrun hst hq
  rw [hpass] at hwire hstrip
  refine ⟨fun j => ?_, hwire⟩
  have hslot := hstrip (by simp) j
  rw [List.getElem?_replicate, if_pos j.isLt] at hslot
  exact (Option.some.inj hslot).symm

end Sys2Proof.Machine
end

section
/-! PROOFS. The Serializer's writes (42_stream_serializer.md R147): no command and no push touches STRIP, WIRE or W, so
over a step they change only by a delivery, and W by a reset too. -/

namespace Sys2Proof.Machine

/-! ### What leaves the strip alone -/

/-- The Serializer's side of two states agrees: STRIP, WIRE and the position W. -/
def State.SameStrip (s t : State) : Prop := t.strip = s.strip ∧ t.wire = s.wire ∧ t.w = s.w

theorem ExecEffect.sameStrip {i : Instr} {s t : State} (e : ExecEffect i s t) : s.SameStrip t := by
  cases e <;> exact ⟨rfl, rfl, rfl⟩

theorem AcceptEffect.sameStrip {s t : State} (e : AcceptEffect s t) : s.SameStrip t := by
  cases e with
  | none | illegal => exact ⟨rfl, rfl, rfl⟩
  | command w rest i t ready offer decoded effect => exact effect.sameStrip

/-- Of the effects of a step only a drain touches the Serializer's side. -/
theorem StepEffect.sameStrip_or_delivers {turn : Option Turn} {s t : State} (e : StepEffect turn s t) :
    s.SameStrip t ∨ ∃ (x : Color) (rest : List Color) (i : Slot),
      s.txq = x :: rest ∧ s.w.toNat = i.val ∧ t = s.txPop.stripWrite i x := by
  cases e with
  | accept t effect => exact .inl effect.sameStrip
  | drain x rest i queue position => exact .inr ⟨x, rest, i, queue, position, rfl⟩
  | _ => exact .inl ⟨rfl, rfl, rfl⟩

/-! ### What a delivery writes -/

theorem State.stripWrite_slot_self (s : State) (i : Slot) (x : Color) : (s.stripWrite i x).strip[i] = x := by simp

theorem State.stripWrite_slot_of_ne (s : State) {i j : Slot} (x : Color) (hne : j ≠ i) :
    (s.stripWrite i x).strip[j] = s.strip[j] := by
  have hval : i.val ≠ j.val := (Fin.val_ne_of_ne hne).symm
  simp [hval]

/-- Settles O28: a step that is no reset leaves the Serializer's side alone or delivers the head of TXQ at slot W. -/
theorem stripChangesOnlyByDelivery : Obligations.StripChangesOnlyByDelivery := by
  intro s t h
  rcases step_cases h with ⟨ts, hturns, rfl⟩ | ⟨-, effect⟩
  · exact .inl ⟨rfl, rfl, .inr ⟨by rw [hturns]; rfl, rfl⟩⟩
  · rcases effect.sameStrip_or_delivers with ⟨hstrip, hwire, hw⟩ | ⟨x, rest, i, queue, position, rfl⟩
    · exact .inl ⟨hstrip, hwire, .inl hw⟩
    · exact .inr ⟨x, rest, i, queue, position, congrArg List.tail queue, State.stripWrite_slot_self _ i x,
        fun j hne => State.stripWrite_slot_of_ne _ x hne, rfl, State.stripWrite_w_toNat _ i x⟩

end Sys2Proof.Machine
end

section
/-! PROOFS. Faults (60_exceptions.md): the accept step raises the first fault that applies (R166) and is the only step
that raises one (R165), and only a reset leaves FAULT (R168). The last two are read off the effects a step can have. -/

namespace Sys2Proof.Machine

/-! ### The order of the checks -/

theorem acceptWord_command {w : CmdWord} {i : Instr} (hd : decode w = .ok i) (s : State) :
    acceptWord w s = exec i s := by
  rw [acceptWord, hd]

theorem State.st_ne_fault_of_ready {s : State} (hr : s.cmdReady = true) : s.st ≠ .fault := by
  rcases s.cmdReady_iff.mp hr with hst | hst <;> simp [hst]

theorem exec_nop (s : State) : exec .nop s = .next s := by
  rw [exec, execNop, whenReady_next, ite_self]

theorem exec_init_of_unclaimed {s : State} (hr : s.cmdReady = true) (hc : s.claimed = false)
    (hk : s.claimOk = true) : exec .init s = .next s.claim.beginClear := by
  rw [exec, execInit, whenReady_of_cmdReady hr, if_neg (by simp [hc]), if_pos hk]

theorem exec_render_of_claimed {s : State} {d : BitVec 8} (hr : s.cmdReady = true) (hc : s.claimed = true)
    (hd : d.toNat ≤ 9) : exec (.render d) s = .next (s.beginRender (BitVec.ofNat 4 d.toNat)) := by
  rw [exec_render_of_digit (renderDigit_of_le hd), whenReady_whenClaimed_of_claimed hr hc]

/-- Past the lifecycle check CHAR has no fault left to raise. -/
theorem exec_char_of_claimed {s : State} (c : BitVec 8) (hr : s.cmdReady = true) (hc : s.claimed = true) :
    ∃ t, exec (.char c) s = .next t ∧ t.st ≠ .fault ∧ t.fcode = s.fcode := by
  by_cases hdigit : 0x30 ≤ c.toNat ∧ c.toNat ≤ 0x39
  · have hrenders := exec_char_of_digit (charDigit_of_digit hdigit) s
    exact ⟨_, hrenders.trans (whenReady_whenClaimed_of_claimed hr hc _), by simp, rfl⟩
  · cases hm : s.mact with
    | true => exact ⟨_, (charNonDigitActsAsClear s c hdigit hm).2 hr hc, by simp, rfl⟩
    | false => exact ⟨s, exec_char_of_mact_false hdigit hm hr hc, State.st_ne_fault_of_ready hr, rfl⟩

/-- Settles O20: the clauses follow the word's decoding, then CLAIMED, then the operand or `claim_ok`. -/
theorem faultPriority : Obligations.FaultPriority := by
  intro s w hr
  cases hd : decode w with
  | error r => exact ⟨_, acceptWord_illegal hd hr, by simp [Except.toOption, State.raiseFault]⟩
  | ok i =>
    simp only [acceptWord_command hd, Except.toOption, reduceCtorEq, if_false]
    cases i with
    | nop => exact ⟨s, exec_nop s, by simp [State.st_ne_fault_of_ready hr]⟩
    | init =>
      cases hc : s.claimed with
      | true => exact ⟨_, secondInitFaults s hr hc, by simp [hc]⟩
      | false =>
        cases hk : s.claimOk with
        | true => exact ⟨_, exec_init_of_unclaimed hr hc hk, by simp⟩
        | false => exact ⟨_, failedClaimFaults s hr hc hk, by simp [hc, hk]⟩
    | clear =>
      cases hc : s.claimed with
      | true => exact ⟨_, exec_clear_of_claimed hr hc, by simp⟩
      | false => exact ⟨_, (commandsBeforeInitFault s hr hc).1, by simp [hc]⟩
    | render d =>
      cases hc : s.claimed with
      | true =>
        by_cases hbad : 9 < d.toNat
        · exact ⟨_, exec_render_of_bad_digit hr hc hbad, by simp [hbad, hc, State.raiseFault]⟩
        · exact ⟨_, exec_render_of_claimed hr hc (Nat.le_of_not_lt hbad), by simp [hbad]⟩
      | false => exact ⟨_, (commandsBeforeInitFault s hr hc).2.1 d, by simp [hc]⟩
    | char c =>
      cases hc : s.claimed with
      | true =>
        obtain ⟨t, ht, hlive, hcode⟩ := exec_char_of_claimed c hr hc
        exact ⟨t, ht, by simp [hlive, hcode]⟩
      | false => exact ⟨_, (commandsBeforeInitFault s hr hc).2.2 c, by simp [hc]⟩

/-! ### Precision -/

/-- A fault is raised by a command that is executed, and is precise. -/
theorem ExecEffect.raises {i : Instr} {s t : State} (e : ExecEffect i s t) (hs : s.st ≠ .fault) (ht : t.st = .fault) :
    ∃ c : FCode, c ≠ .none ∧ t = s.raiseFault c := by
  cases e with
  | none => exact absurd ht hs
  | fault c ready code => exact ⟨c, code, rfl⟩
  | init | clear | render => simp at ht

/-- The word on the port is accepted and raises a fault, with no effect but the code. -/
def State.AcceptFaults (s t : State) : Prop :=
  s.cmdReady = true ∧ ∃ (w : CmdWord) (rest : List CmdWord) (c : FCode), s.offers = w :: rest ∧ c ≠ .none ∧
    t = (s.withOffers rest).raiseFault c

theorem AcceptEffect.raises {s t : State} (e : AcceptEffect s t) (hs : s.st ≠ .fault) (ht : t.st = .fault) :
    s.AcceptFaults t := by
  cases e with
  | none => exact absurd ht hs
  | illegal w rest r ready offer => exact ⟨ready, w, rest, .illegalCmd, offer, by simp, rfl⟩
  | command w rest i t ready offer decoded effect =>
    obtain ⟨c, code, rfl⟩ := effect.raises hs ht
    exact ⟨ready, w, rest, c, offer, code, rfl⟩

/-- A push ends in STREAM or IDLE. -/
theorem State.advancePass_st_ne_fault {s : State} (h : s.st = .stream) : s.advancePass.st ≠ .fault := by
  rw [State.advancePass_st]
  split <;> simp [h]

/-- Of the effects of a step only an accept raises a fault. -/
theorem StepEffect.raises {turn : Option Turn} {s t : State} (e : StepEffect turn s t) (hs : s.st ≠ .fault)
    (ht : t.st = .fault) : s.AcceptFaults t := by
  cases e with
  | accept t effect => exact effect.raises hs ht
  | push x enabled => exact absurd ht (State.advancePass_st_ne_fault (s.pushEnabled_iff.mp enabled).1)
  | _ => exact absurd ht hs

/-- Settles O21: a step that enters FAULT is an accept, and an accept that faults changes FCODE and ST alone. -/
theorem faultsArePrecise : Obligations.FaultsArePrecise := by
  refine ⟨fun i s t hs he ht => ?_, fun s t hs hstep ht => ?_⟩
  · obtain ⟨t', ht', effect⟩ := exec_effect i s
    rw [he] at ht'
    cases ht'
    exact effect.raises hs ht
  · rcases step_cases hstep with ⟨ts, -, rfl⟩ | ⟨-, effect⟩
    · cases ht
    · obtain ⟨ready, w, rest, c, offer, code, rfl⟩ := effect.raises hs ht
      exact ⟨s.cmdReady_iff.mp ready, w, rest, c, offer, code, rfl⟩

/-! ### FAULT -/

/-- Where the block is not ready the accept step does nothing. -/
theorem AcceptEffect.eq_of_not_ready {s t : State} (e : AcceptEffect s t) (hr : s.cmdReady = false) : t = s := by
  cases e with
  | none => rfl
  | illegal w rest r ready => simp [hr] at ready
  | command w rest i t ready => simp [hr] at ready

/-- In FAULT the Host may offer more words, the platform may drive `claim_ok` and TXQ may drain: nothing else moves. -/
theorem StepEffect.stays_in_fault {turn : Option Turn} {s t : State} (e : StepEffect turn s t) (h : s.st = .fault) :
    t.st = .fault ∧ t.fcode = s.fcode ∧ ∃ more, t.offers = s.offers ++ more := by
  cases e with
  | offer w => exact ⟨h, rfl, [w], rfl⟩
  | accept t effect =>
    rw [effect.eq_of_not_ready (s.cmdReady_eq_false_iff.mpr (.inr h))]
    exact ⟨h, rfl, [], by simp⟩
  | push x enabled => simp [State.pushEnabled_iff, h] at enabled
  | none | claimLevel | drain => exact ⟨h, rfl, [], by simp⟩

theorem State.not_final_of_fault {s : State} (h : s.st = .fault) : s.final = false := by
  rw [State.final, s.cmdReady_eq_false_iff.mpr (.inr h), Bool.and_false]

/-- Settles O37: no effect of a step that is not a reset leaves FAULT, writes FCODE or takes an offer there. -/
theorem onlyResetLeavesFault : Obligations.OnlyResetLeavesFault := by
  intro s t h hstep
  refine ⟨State.not_final_of_fault h, ?_⟩
  rcases step_cases hstep with ⟨ts, hturns, -⟩ | ⟨-, effect⟩
  · exact .inl (by rw [hturns]; rfl)
  · exact .inr (effect.stays_in_fault h)

end Sys2Proof.Machine
end

section
/-! PROOFS. Reset (70_reset_and_hazards.md R180, R181): a reset step and an edge with `rst_n` = 0 both give `resetBlock`,
whose `cmd_ready` and `status` are read off its registers. -/

namespace Sys2Proof.Machine

theorem step_hostReset {s : State} {ts : List Turn} (h : s.turns = .hostReset :: ts) :
    step s = .next (s.withTurns ts).resetBlock := by
  simp [step, nextTurn, h, takeTurn]

theorem edge_rstN_low (delivers : Bool) (s : State) : edge false delivers s = .next s.resetBlock := rfl

theorem State.resetBlock_cmdReady (s : State) : s.resetBlock.cmdReady = true :=
  s.resetBlock.cmdReady_iff.mpr (.inl s.resetBlock_st)

/-- The queue a reset leaves is full only where it has no room at all, which R7 excludes. -/
theorem State.resetBlock_txqFull {s : State} (h : 1 ≤ s.cfg.txqDepth) : s.resetBlock.txqFull = false := by
  have hroom : 0 ≠ s.cfg.txqDepth := (Nat.ne_of_gt h).symm
  simpa [State.txqFull] using hroom

/-- TXQ_EMPTY is the only bit of `status` that a reset leaves set. -/
theorem State.resetBlock_status {s : State} (h : 1 ≤ s.cfg.txqDepth) : s.resetBlock.status = 0x0008#16 := by
  calc s.resetBlock.status = packStatus FCode.none.code false false true false false false := by
        rw [State.status, State.resetBlock_txqFull h]
        rfl
    _ = 0x0008#16 := by decide

/-- Settles O31: the state the obligation writes out is `resetBlock`, with the turns that remain after a reset step. -/
theorem resetStepRestoresRegisters : Obligations.ResetStepRestoresRegisters := fun s =>
  ⟨fun _ => step_hostReset, fun delivers => edge_rstN_low delivers s, s.resetBlock_cmdReady, State.resetBlock_status⟩

end Sys2Proof.Machine
end

section
/-! PROOFS. The encoder and the assembler (30_encoding.md R72, R74, R83), read off `decode_eq_ok_iff`: decoding and encoding
undo each other. -/

namespace Sys2Proof.Machine

theorem decode_encode (i : Instr) : decode (encode i) = .ok i := (decode_eq_ok_iff _ _).mpr rfl

/-- Settles O1: the word of a command is the one that decodes to it. -/
theorem decodeOfEncodeIsIdentity : Obligations.DecodeOfEncodeIsIdentity := decode_encode

/-- Settles O2: a word that decodes holds no bit beyond the fields of its command. -/
theorem decodedWordIsTheEncoding : Obligations.DecodedWordIsTheEncoding := fun w i => (decode_eq_ok_iff w i).mp

/-- Settles O5: each command's word is its encoding, and each Illegal word fails its check by evaluation. -/
theorem sampleWordsDecode : Obligations.SampleWordsDecode :=
  ⟨decode_encode .nop, decode_encode .init, decode_encode .clear, decode_encode (.render 3#8),
    decode_encode (.render 10#8), decode_encode (.char 0x37#8), rfl, rfl, rfl⟩

/-! ### The assembler -/

theorem assemble_of_wellFormed {a : Asm} (h : a.wellFormed = true) : a.assemble = .ok (encode a.instr) := if_pos h

theorem assemble_of_not_wellFormed {a : Asm} (h : ¬a.wellFormed = true) : a.assemble = .error .outOfRange := if_neg h

theorem encode_render_toNat {n : Nat} (h : n ≤ 255) : (encode (.render (BitVec.ofNat 8 n))).toNat = 0x3000 + n := by
  have hword : (encode (.render (BitVec.ofNat 8 n))).toNat = 3 * 4096 + n % 256 := encode_toNat _
  omega

theorem encode_char_toNat {n : Nat} (h : n ≤ 255) : (encode (.char (BitVec.ofNat 8 n))).toNat = 0x4000 + n := by
  have hword : (encode (.char (BitVec.ofNat 8 n))).toNat = 4 * 4096 + n % 256 := encode_toNat _
  omega

/-- Settles O6: an operand in range is ARG itself, so the assembled word is the encoding of the command written. -/
theorem assemblerPlacesOperands : Obligations.AssemblerPlacesOperands := by
  refine ⟨fun n hn => ⟨?_, ?_⟩, fun n hn => ⟨?_, ?_⟩, fun c hc => ?_⟩
  · exact ⟨_, assemble_of_wellFormed (decide_eq_true hn), encode_render_toNat hn, decode_encode _⟩
  · exact ⟨_, assemble_of_wellFormed (decide_eq_true hn), encode_char_toNat hn, decode_encode _⟩
  · exact assemble_of_not_wellFormed (by simpa [Asm.wellFormed] using hn)
  · exact assemble_of_not_wellFormed (by simpa [Asm.wellFormed] using hn)
  · exact ⟨_, assemble_of_wellFormed (decide_eq_true hc), encode_char_toNat (by omega)⟩

end Sys2Proof.Machine
end

section
/-! PROOFS. What every step keeps (10_state.md R21, R37, R38): the configuration, the channel premise and COLOR_W; and that
the invariants leave no step without an answer. -/

namespace Sys2Proof.Machine

/-! ### The configuration and the channel premise -/

theorem ExecEffect.cfg_healthy {i : Instr} {s t : State} (e : ExecEffect i s t) :
    t.cfg = s.cfg ∧ t.healthy = s.healthy := by
  cases e <;> exact ⟨rfl, rfl⟩

theorem AcceptEffect.cfg_healthy {s t : State} (e : AcceptEffect s t) : t.cfg = s.cfg ∧ t.healthy = s.healthy := by
  cases e with
  | none | illegal => exact ⟨rfl, rfl⟩
  | command w rest i t ready offer decoded effect => exact effect.cfg_healthy

theorem StepEffect.cfg_healthy {turn : Option Turn} {s t : State} (e : StepEffect turn s t) :
    t.cfg = s.cfg ∧ t.healthy = s.healthy := by
  cases e with
  | accept t effect => exact effect.cfg_healthy
  | _ => exact ⟨rfl, rfl⟩

theorem step_cfg_healthy {s t : State} (h : step s = .next t) : t.cfg = s.cfg ∧ t.healthy = s.healthy := by
  rcases step_cases h with ⟨ts, -, rfl⟩ | ⟨-, effect⟩
  · exact ⟨rfl, rfl⟩
  · exact effect.cfg_healthy

/-- Settles O36: no effect of a step writes the configuration. -/
theorem configurationIsFixed : Obligations.ConfigurationIsFixed := fun _ _ h => (step_cfg_healthy h).1

/-! ### Colour words -/

theorem State.ColorsFit.rom_lt {s : State} (h : s.ColorsFit) (a : RomAddr) : memRead s.cfg a < 2 ^ s.cfg.colorW := h.1 a

/-- The word of a push is 0 or a word of the ROM. -/
theorem State.ColorsFit.nextWord_lt {s : State} (h : s.ColorsFit) {x : Color} (hx : s.nextWord = .ok x) :
    x < 2 ^ s.cfg.colorW := by
  unfold State.nextWord at hx
  split at hx
  · cases hx
  · split at hx
    · cases hx
      exact Nat.two_pow_pos _
    · cases hx
      exact h.rom_lt _
    · cases hx

theorem State.ColorsFit.txPush {s : State} (h : s.ColorsFit) {x : Color} (hx : x < 2 ^ s.cfg.colorW) :
    (s.txPush x).ColorsFit := by
  obtain ⟨hrom, htxq, hstrip, hwire⟩ := h
  refine ⟨hrom, fun c hc => ?_, hstrip, hwire⟩
  rcases List.mem_append.mp hc with hc | hc
  · exact htxq c hc
  · rwa [List.mem_singleton.mp hc]

/-- A delivery puts the head of TXQ on STRIP and WIRE. -/
theorem State.ColorsFit.txPop_stripWrite {s : State} (h : s.ColorsFit) {x : Color} {rest : List Color} {i : Slot}
    (hq : s.txq = x :: rest) : (s.txPop.stripWrite i x).ColorsFit := by
  obtain ⟨hrom, htxq, hstrip, hwire⟩ := h
  have hx : x < 2 ^ s.cfg.colorW := htxq x (by simp [hq])
  refine ⟨hrom, fun c hc => htxq c (List.mem_of_mem_tail hc), fun j => ?_, fun c hc => ?_⟩
  · by_cases hji : j = i
    · rwa [hji, State.stripWrite_slot_self]
    · rw [State.stripWrite_slot_of_ne _ x hji]
      exact hstrip j
  · rcases List.mem_append.mp hc with hc | hc
    · exact hwire c hc
    · rwa [List.mem_singleton.mp hc]

theorem ExecEffect.keeps_colorsFit {i : Instr} {s t : State} (e : ExecEffect i s t) (h : s.ColorsFit) :
    t.ColorsFit := by
  cases e <;> exact h

theorem AcceptEffect.keeps_colorsFit {s t : State} (e : AcceptEffect s t) (h : s.ColorsFit) : t.ColorsFit := by
  cases e with
  | none | illegal => exact h
  | command w rest i t ready offer decoded effect => exact effect.keeps_colorsFit h

theorem StepEffect.keeps_colorsFit {turn : Option Turn} {s t : State} (e : StepEffect turn s t) (h : s.ColorsFit) :
    t.ColorsFit := by
  cases e with
  | none | offer | claimLevel => exact h
  | accept t effect => exact effect.keeps_colorsFit h
  | push x enabled word => exact h.txPush (h.nextWord_lt word)
  | drain x rest i queue => exact h.txPop_stripWrite queue

theorem State.ColorsFit.resetBlock {s : State} (h : s.ColorsFit) : s.resetBlock.ColorsFit := by
  obtain ⟨hrom, -, hstrip, hwire⟩ := h
  exact ⟨hrom, by simp, hstrip, hwire⟩

/-- Settles O35: a colour word enters TXQ from the ROM or as 0, and STRIP and WIRE from TXQ. -/
theorem stepKeepsColorWidth : Obligations.StepKeepsColorWidth := by
  intro s t h hs
  have hturns : ∀ ts, (s.withTurns ts).ColorsFit := fun _ => h
  rcases step_cases hs with ⟨ts, -, rfl⟩ | ⟨-, effect⟩
  · exact (hturns ts).resetBlock
  · exact effect.keeps_colorsFit (hturns _)

/-! ### Every step answers -/

theorem State.Inv.nextWord {s : State} (h : s.Inv) (hst : s.st = .stream) : ∃ x, s.nextWord = .ok x := by
  obtain ⟨hk, -⟩ := h.counter
  cases hopk : s.opk with
  | zero => exact ⟨_, State.nextWord_zero hopk hk⟩
  | glyph =>
    have hdig := h.digit hst hopk
    exact ⟨_, State.nextWord_glyph (k := ⟨s.k.toNat, by omega⟩) (d := ⟨s.dig.toNat, by omega⟩) hopk rfl rfl⟩

theorem State.Inv.push_answers {s : State} (h : s.Inv) : ∃ t, push s = .next t := by
  cases hp : s.pushEnabled with
  | false => exact ⟨s, push_held hp⟩
  | true =>
    obtain ⟨x, hx⟩ := h.nextWord (s.pushEnabled_iff.mp hp).1
    exact ⟨_, push_next hp hx⟩

theorem State.Inv.drain_next {s : State} (h : s.Inv) {x : Color} {rest : List Color} (hq : s.txq = x :: rest) :
    ∃ i : Slot, s.w.toNat = i.val ∧ drain s = .next (s.txPop.stripWrite i x) := by
  have hw := h.position
  have hpos : s.w.toNat = (⟨s.w.toNat, by omega⟩ : Slot).val := rfl
  exact ⟨_, hpos, Machine.drain_next hq hpos⟩

theorem State.Inv.drain_answers {s : State} (h : s.Inv) : ∃ t, drain s = .next t := by
  cases hq : s.txq with
  | nil => exact ⟨s, drain_empty hq⟩
  | cons x rest =>
    obtain ⟨i, -, hdrain⟩ := h.drain_next hq
    exact ⟨_, hdrain⟩

theorem accept_answers (s : State) : ∃ t, accept s = .next t := (accept_effect s).imp fun _ h => h.1

theorem State.Inv.freeTurn_answers {s : State} (h : s.Inv) : ∃ t, freeTurn s = .next t := by
  unfold freeTurn
  split
  · exact h.push_answers
  · split
    · exact h.drain_answers
    · exact accept_answers s

theorem State.Inv.sequencerStep_answers {s : State} (h : s.Inv) : ∃ t, sequencerStep s = .next t := by
  unfold sequencerStep
  split
  · exact accept_answers s
  · exact accept_answers s
  · exact h.push_answers
  · exact ⟨s, rfl⟩

theorem State.Inv.takeTurn_answers {s : State} (h : s.Inv) (turn : Turn) : ∃ t, takeTurn turn s = .next t := by
  cases turn with
  | sequencer => exact h.sequencerStep_answers
  | serializer => exact h.drain_answers
  | hostOffer | hostReadStatus | hostReset | platformClaim => exact ⟨_, rfl⟩

/-- Settles O34: with K, DIG and W in range a push has its word and a drain its slot. -/
theorem stepAlwaysAnswers : Obligations.StepAlwaysAnswers := by
  intro s h
  unfold step nextTurn
  split
  · exact h.freeTurn_answers
  · exact (h.withTurns _).takeTurn_answers _

end Sys2Proof.Machine
end

section
/-! PROOFS. The push and the drain, and the ends of a run (42_stream_serializer.md R144 to R149, R153): a hold, a quiescent
state, and the run that delivers every promised word. -/

namespace Sys2Proof.Machine

/-! ### One push, one drain -/

/-- The state after a push, K read as a slot. -/
theorem State.txPush_advancePass_eq {s : State} {k : Slot} (hst : s.st = .stream) (hk : s.k.toNat = k.val)
    (x : Color) : (s.txPush x).advancePass = { s with
      txq := s.txq ++ [x], k := if k = 24 then 0#5 else s.k + 1#5, st := if k = 24 then .idle else .stream } := by
  have hlast : s.k.toNat = 24 ↔ k = 24 := by rw [hk, Fin.ext_iff]; rfl
  simp only [State.advancePass, State.txPush, hlast, hst]

/-- Settles O26: the word of slot K is 0 in a ZERO pass and the ROM word of Map(K) in a GLYPH pass. -/
theorem pushAppendsPassWord : Obligations.PushAppendsPassWord := by
  intro s k hst hroom hk
  have hp : s.pushEnabled = true := s.pushEnabled_iff.mpr ⟨hst, hroom⟩
  refine ⟨fun hzero => ?_, fun d a hglyph hd ha => ?_⟩
  · rw [push_next hp (State.nextWord_zero hzero (by omega)), State.txPush_advancePass_eq hst hk]
  · have haddr : romAddr d (indexMap k) = a := Fin.ext ha.symm
    rw [push_next hp (State.nextWord_glyph hglyph hk hd), State.txPush_advancePass_eq hst hk, glyphWord, haddr, memRead]

/-- Settles O27: the delivery writes slot W, WIRE and W, and takes the head off TXQ. -/
theorem drainDeliversHead : Obligations.DrainDeliversHead := by
  intro s x rest i hq hw
  refine ⟨_, drain_next hq hw, rfl, State.stripWrite_w_toNat _ i x, ?_⟩
  have htail : s.txq.tail = rest := by rw [hq]; rfl
  rw [← htail]
  rfl

/-! ### Holds -/

theorem accept_of_not_ready {s : State} (hr : s.cmdReady = false) : accept s = .next s := by
  obtain ⟨t, ht, effect⟩ := accept_effect s
  rwa [effect.eq_of_not_ready hr] at ht

theorem accept_of_offers_nil {s : State} (ho : s.offers = []) : accept s = .next s := by
  simp [accept, ho]

theorem step_of_turns_nil {s : State} (h : s.turns = []) : step s = freeTurn s := by
  simp [step, nextTurn, h]

theorem step_sequencer {s : State} {ts : List Turn} (h : s.turns = .sequencer :: ts) :
    step s = sequencerStep (s.withTurns ts) := by
  simp [step, nextTurn, h, takeTurn]

theorem step_serializer {s : State} {ts : List Turn} (h : s.turns = .serializer :: ts) :
    step s = drain (s.withTurns ts) := by
  simp [step, nextTurn, h, takeTurn]

theorem freeTurn_of_push {s : State} (hp : s.pushEnabled = true) : freeTurn s = push s := if_pos hp

theorem freeTurn_of_drain {s : State} (hp : s.pushEnabled = false) (hd : s.drainEnabled = true)
    (hh : s.healthy = true) : freeTurn s = drain s := by
  simp [freeTurn, hp, hd, hh]

theorem freeTurn_of_no_move {s : State} (hp : s.pushEnabled = false) (hd : (s.drainEnabled && s.healthy) = false) :
    freeTurn s = accept s := by
  simp [freeTurn, hp, hd]

theorem State.pushEnabled_of_full {s : State} (hfull : s.txq.length = s.cfg.txqDepth) : s.pushEnabled = false := by
  simp [State.pushEnabled, hfull]

theorem run_of_step_self {s : State} (h : step s = .next s) (n : Nat) : run n s = .next s := by
  induction n with
  | zero => rfl
  | succ n ih => rw [run_succ_of_next h, ih]

theorem step_of_blocked {s : State} (h : s.blocked = true) : step s = .next s := by
  simp only [State.blocked, Bool.and_eq_true, State.busy_iff, State.txqFull_iff, Bool.not_eq_true',
    List.isEmpty_iff] at h
  obtain ⟨⟨⟨hst, hfull⟩, hfailed⟩, hturns⟩ := h
  rw [step_of_turns_nil hturns, freeTurn_of_no_move (State.pushEnabled_of_full hfull) (by simp [hfailed]),
    accept_of_not_ready (s.cmdReady_eq_false_iff.mpr (.inl hst))]

/-- Settles O29: a full queue disables the push, and on a failed channel nothing else can move. -/
theorem fullQueueHoldsForEver : Obligations.FullQueueHoldsForEver := by
  refine ⟨fun s ts hst hfull hturns => ?_, fun s n h => run_of_step_self (step_of_blocked h) n⟩
  have hpush : sequencerStep (s.withTurns ts) = push (s.withTurns ts) := by simp [sequencerStep, hst]
  rw [step_sequencer hturns, hpush, push_held (State.pushEnabled_of_full (s := s.withTurns ts) hfull)]
  rfl

/-! ### Quiescent states -/

theorem State.st_ne_stream_of_held {s : State} (hdepth : 1 ≤ s.cfg.txqDepth) (hp : s.pushEnabled = false)
    (hq : s.txq = []) : s.st ≠ .stream := by
  intro hst
  have henabled : s.pushEnabled = true := s.pushEnabled_iff.mpr ⟨hst, by rwa [hq]⟩
  simp [hp] at henabled

theorem State.drainEnabled_eq_false_iff (s : State) : s.drainEnabled = false ↔ s.txq = [] := by
  rw [← Bool.not_eq_true, State.drainEnabled_iff, not_not]

theorem State.quiescent_iff (s : State) :
    s.quiescent = true ↔ (s.cmdReady = false ∨ s.offers = []) ∧ s.pushEnabled = false ∧ s.txq = [] := by
  simp only [State.quiescent, State.cmdValid, Bool.and_eq_true, Bool.not_eq_true', Bool.and_eq_false_iff,
    Bool.not_eq_false', List.isEmpty_iff, State.drainEnabled_eq_false_iff, and_assoc]

/-- Settles O46: with no push and no drain enabled, STREAM would need a queue of no capacity; and no accept is left. -/
theorem quiescentStates : Obligations.QuiescentStates := by
  intro s _ hdepth hquiet
  obtain ⟨hwaits, hp, hq⟩ := s.quiescent_iff.mp hquiet
  refine ⟨State.st_ne_stream_of_held hdepth hp hq, hq, ?_, fun hturns => ?_⟩
  · rw [State.final, hquiet, Bool.true_and, State.cmdReady_iff]
  · have hd : s.drainEnabled = false := s.drainEnabled_eq_false_iff.mpr hq
    rw [step_of_turns_nil hturns, freeTurn_of_no_move hp (by simp [hd])]
    exact hwaits.elim accept_of_not_ready accept_of_offers_nil

/-- Settles O45: BUSY and TXQ_EMPTY are ST and TXQ, and R38's alignment gives W. -/
theorem doneMeansDelivered : Obligations.DoneMeansDelivered := by
  intro s hinv hbusy hempty
  obtain ⟨-, hbit1, -, hbit3, -⟩ := statusLayout s
  have hst : s.st ≠ .stream := fun hst => Bool.false_ne_true (hbusy.symm.trans (hbit1.mpr hst))
  have hq : s.txq = [] := List.eq_nil_of_length_eq_zero (hbit3.mp hempty)
  exact ⟨State.promised_of_drained hst hq, BitVec.eq_of_toNat_eq (hinv.w_of_drained hst hq)⟩

/-! ### A run on a healthy channel -/

/-- Nothing is left to happen but the pushes and drains due: no turn listed, nothing offered, the channel healthy. -/
structure State.Finishing (s : State) : Prop where
  inv : s.Inv
  depth : 1 ≤ s.cfg.txqDepth
  turns : s.turns = []
  offers : s.offers = []
  healthy : s.healthy = true

/-- The pushes and drains still due: two for each word to be pushed, one for each word queued. -/
def State.due (s : State) : Nat := 2 * s.unsent.length + s.txq.length

/-- ST once the pass in progress, if there is one, has ended. -/
def State.restSt (s : State) : St := if s.st = .stream then .idle else s.st

theorem State.Finishing.undisturbed {s : State} (h : s.Finishing) : s.undisturbed = true := by
  simp [State.undisturbed_iff, h.offers, h.turns]

theorem State.Finishing.step {s t : State} (h : s.Finishing) (hs : step s = .next t) : t.Finishing := by
  obtain ⟨hcfg, hhealthy⟩ := step_cfg_healthy hs
  obtain ⟨hoffers, -⟩ := t.undisturbed_iff.mp (step_keeps_undisturbed h.undisturbed hs)
  exact
    { inv := step_keeps_inv h.inv hs
      depth := hcfg ▸ h.depth
      turns := by rw [step_turns hs, h.turns]; rfl
      offers := hoffers
      healthy := hhealthy.trans h.healthy }

theorem State.Inv.unsent_ne_nil {s : State} (h : s.Inv) (hst : s.st = .stream) : s.unsent ≠ [] := by
  obtain ⟨x, hx⟩ := h.nextWord hst
  simp [State.unsent_of_nextWord hst hx]

/-- Nothing is due exactly when the pass has ended and TXQ is empty. -/
theorem State.Inv.due_eq_zero_iff {s : State} (h : s.Inv) : s.due = 0 ↔ s.st ≠ .stream ∧ s.txq = [] := by
  have hunsent : s.unsent = [] ↔ s.st ≠ .stream :=
    ⟨fun hnil hst => h.unsent_ne_nil hst hnil, State.unsent_of_not_stream⟩
  simp [State.due, hunsent]

/-- A push turns a word to be pushed into a queued one. -/
theorem State.Inv.push_due {s : State} (h : s.Inv) (hp : s.pushEnabled = true) :
    ∃ t, push s = .next t ∧ t.due + 1 = s.due ∧ t.restSt = s.restSt := by
  obtain ⟨hst, -⟩ := s.pushEnabled_iff.mp hp
  obtain ⟨x, hx⟩ := h.nextWord hst
  refine ⟨_, push_next hp hx, ?_, ?_⟩
  · have hbefore : s.unsent = x :: s.currentPass.drop (s.k.toNat + 1) := State.unsent_of_nextWord hst hx
    have hafter : (s.txPush x).advancePass.unsent = s.currentPass.drop (s.k.toNat + 1) :=
      State.advancePass_unsent (s := s.txPush x) hst h.counter.1
    simp only [State.due, hbefore, hafter, State.advancePass_txq, State.txPush_txq, List.length_append,
      List.length_cons, List.length_nil]
    omega
  · simp [State.restSt, hst]

/-- A drain takes a queued word away and leaves the pass alone. -/
theorem State.Inv.drain_due {s : State} (h : s.Inv) (hq : s.txq ≠ []) :
    ∃ t, drain s = .next t ∧ t.due + 1 = s.due ∧ t.restSt = s.restSt := by
  obtain ⟨x, rest, hq⟩ := List.exists_cons_of_ne_nil hq
  obtain ⟨i, -, hdrain⟩ := h.drain_next hq
  have hunsent : (s.txPop.stripWrite i x).unsent = s.unsent := rfl
  exact ⟨_, hdrain, by simp [State.due, hunsent, hq, Nat.add_assoc], rfl⟩

/-- While something is due, a step is a push or a drain. -/
theorem State.Finishing.step_due {s : State} (h : s.Finishing) (hdue : s.due ≠ 0) :
    ∃ t, Machine.step s = .next t ∧ t.due + 1 = s.due ∧ t.restSt = s.restSt := by
  rw [step_of_turns_nil h.turns]
  cases hp : s.pushEnabled with
  | true =>
    rw [freeTurn_of_push hp]
    exact h.inv.push_due hp
  | false =>
    have hq : s.txq ≠ [] := fun hq =>
      hdue (h.inv.due_eq_zero_iff.mpr ⟨State.st_ne_stream_of_held h.depth hp hq, hq⟩)
    rw [freeTurn_of_drain hp (s.drainEnabled_iff.mpr hq) h.healthy]
    exact h.inv.drain_due hq

/-- A state with nothing due is where the run ends. -/
theorem State.Finishing.of_due_eq_zero {s : State} (h : s.Finishing) (hdue : s.due = 0) :
    s.quiescent = true ∧ s.wire = s.promised ∧ s.st = s.restSt := by
  obtain ⟨hst, hq⟩ := h.inv.due_eq_zero_iff.mp hdue
  have hp : s.pushEnabled = false := by simp [State.pushEnabled, State.busy, hst]
  exact ⟨s.quiescent_iff.mpr ⟨.inr h.offers, hp, hq⟩, (State.promised_of_drained hst hq).symm, (if_neg hst).symm⟩

theorem State.Finishing.run_due {n : Nat} : ∀ {s : State}, s.Finishing → s.due = n →
    ∃ t, run n s = .next t ∧ t.quiescent = true ∧ t.wire = s.promised ∧ t.st = s.restSt := by
  induction n with
  | zero => exact fun h hdue => ⟨_, run_zero _, h.of_due_eq_zero hdue⟩
  | succ n ih =>
    intro s h hdue
    obtain ⟨u, hu, hdue', hrest⟩ := h.step_due (by omega)
    obtain ⟨t, ht, hquiet, hwire, hst⟩ := ih (h.step hu) (by omega)
    exact ⟨t, (run_succ_of_next hu n).trans ht, hquiet,
      hwire.trans (step_promised_of_undisturbed h.undisturbed hu), hst.trans hrest⟩

/-- Settles O47, by induction on the pushes and drains due: each step does one and promises nothing new. -/
theorem healthyRunDelivers : Obligations.HealthyRunDelivers := fun _ inv depth turns offers healthy =>
  State.Finishing.run_due ⟨inv, depth, turns, offers, healthy⟩ rfl

end Sys2Proof.Machine
end

section
/-! PROOFS. What the commands do and leave alone (41_commands.md), and the step that accepts one (R110). -/

namespace Sys2Proof.Machine

/-! ### The effect of each command -/

/-- Settles O8: NOP's effect is the identity. -/
theorem nopChangesNothing : Obligations.NopChangesNothing := fun s _ => exec_nop s

/-- Settles O9: with CLAIMED = 0 and `claim_ok` = 1 both of INIT's checks pass. -/
theorem initClaimsAndStartsClear : Obligations.InitClaimsAndStartsClear := fun s hst hc hk =>
  exec_init_of_unclaimed (s.cmdReady_iff.mpr hst) hc hk

/-- Settles O10: CLEAR has one check, that CLAIMED = 1. -/
theorem clearStartsZeroPass : Obligations.ClearStartsZeroPass := fun s hst hc =>
  exec_clear_of_claimed (s.cmdReady_iff.mpr hst) hc

/-- Settles O11: a digit d ≤ 9 is the low four bits of ARG. -/
theorem renderStartsGlyphPass : Obligations.RenderStartsGlyphPass := by
  intro s d hst hc hd
  rw [exec_render_of_claimed (s.cmdReady_iff.mpr hst) hc hd, BitVec.ofNat_toNat]
  rfl

/-- Settles O12: CHAR of a digit is RENDER of it, and MACT decides between CLEAR and nothing for every other character. -/
theorem charDispatches : Obligations.CharDispatches := by
  intro s c hst hc
  have hr : s.cmdReady = true := s.cmdReady_iff.mpr hst
  by_cases hdigit : 0x30 ≤ c.toNat ∧ c.toNat ≤ 0x39
  · have hd : (c - 0x30#8).toNat ≤ 9 := by bv_omega
    rw [if_pos hdigit, charDigitActsAsRender s c hdigit.1 hdigit.2, renderStartsGlyphPass s _ hst hc hd]
  · rw [if_neg hdigit]
    cases hm : s.mact with
    | true => exact (charNonDigitActsAsClear s c hdigit hm).2 hr hc
    | false => exact exec_char_of_mact_false hdigit hm hr hc

/-! ### The frame -/

theorem ExecEffect.claimOk {i : Instr} {s t : State} (e : ExecEffect i s t) : t.claimOk = s.claimOk := by
  cases e <;> rfl

theorem ExecEffect.fcode {i : Instr} {s t : State} (e : ExecEffect i s t) (h : t.st ≠ .fault) : t.fcode = s.fcode := by
  cases e with
  | fault => exact absurd rfl h
  | _ => rfl

/-- The registers of the pass and the flags change only where a pass starts. -/
theorem ExecEffect.registers {i : Instr} {s t : State} (e : ExecEffect i s t) (h : t.st ≠ .stream) :
    t.opk = s.opk ∧ t.dig = s.dig ∧ t.k = s.k ∧ t.mact = s.mact ∧ t.claimed = s.claimed := by
  cases e with
  | none | fault => exact ⟨rfl, rfl, rfl, rfl, rfl⟩
  | init | clear | render => exact absurd rfl h

theorem ExecEffect.claimed {i : Instr} {s t : State} (e : ExecEffect i s t) :
    t.claimed = s.claimed ∨ i = .init ∧ t.claimed = true := by
  cases e with
  | init _ isInit => exact .inr ⟨isInit, rfl⟩
  | _ => exact .inl rfl

/-- Settles O23: each of the five effects of a command writes ST and FCODE, or ST, the flags and the registers of the
pass. -/
theorem commandFrame : Obligations.CommandFrame := by
  intro i s t h
  obtain ⟨u, hu, effect⟩ := exec_effect i s
  obtain rfl : t = u := by simpa [h] using hu
  obtain ⟨hstrip, hwire, hw⟩ := effect.sameStrip
  obtain ⟨-, htxq⟩ := effect.wire_txq
  obtain ⟨hcfg, hhealthy⟩ := effect.cfg_healthy
  refine ⟨htxq, hw, hstrip, hwire, hcfg, effect.offers, effect.claimOk, hhealthy, effect.turns, fun a => by rw [hcfg],
    effect.fcode, effect.registers, fun hinit => ?_, fun hc => ?_, ?_⟩
  · exact effect.claimed.resolve_right fun hset => hinit hset.1
  · exact effect.claimed.elim (fun hsame => hsame.trans hc) fun hset => hset.2
  · rintro rfl
    simpa [exec_nop] using h.symm

/-! ### Waiting -/

theorem ExecEffect.eq_of_not_ready {i : Instr} {s t : State} (e : ExecEffect i s t) (hr : s.cmdReady = false) :
    t = s := by
  cases e with
  | none => rfl
  | fault _ ready | init ready | clear ready | render _ ready => simp [hr] at ready

theorem exec_of_not_ready {s : State} (i : Instr) (hr : s.cmdReady = false) : exec i s = .next s := by
  obtain ⟨t, ht, effect⟩ := exec_effect i s
  rwa [effect.eq_of_not_ready hr] at ht

/-- Where the block is not ready only the Host touches its offers, and it adds to them. -/
theorem StepEffect.offers_of_not_ready {turn : Option Turn} {s t : State} (e : StepEffect turn s t)
    (hr : s.cmdReady = false) : t.offers = s.offers ∨ ∃ w, turn = some (.hostOffer w) ∧ t.offers = s.offers ++ [w] := by
  cases e with
  | offer w listed => exact .inr ⟨w, listed, rfl⟩
  | accept t effect => exact .inl (by rw [effect.eq_of_not_ready hr])
  | none | claimLevel | push | drain => exact .inl rfl

/-- Settles O22: no accept is enabled while `cmd_ready` = 0. -/
theorem commandsWaitWhileNotReady : Obligations.CommandsWaitWhileNotReady := by
  intro s hst
  have hr : s.cmdReady = false := s.cmdReady_eq_false_iff.mpr hst
  refine ⟨fun i => exec_of_not_ready i hr, fun ts t hturns h => ?_⟩
  rw [step_sequencer hturns] at h
  simpa using (sequencerStep_effect h).offers_of_not_ready hr

/-! ### Accepting -/

theorem accept_of_ready {s : State} {w : CmdWord} {rest : List CmdWord} (hr : s.cmdReady = true)
    (ho : s.offers = w :: rest) : accept s = acceptWord w (s.withOffers rest) := by
  simp [accept, ho, hr]

theorem sequencerStep_of_ready {s : State} (hr : s.cmdReady = true) : sequencerStep s = accept s := by
  rcases s.cmdReady_iff.mp hr with hst | hst <;> simp [sequencerStep, hst]

theorem State.pushEnabled_of_ready {s : State} (hr : s.cmdReady = true) : s.pushEnabled = false := by
  rcases s.cmdReady_iff.mp hr with hst | hst <;> simp [State.pushEnabled, State.busy, hst]

theorem step_accepts {s : State} {w : CmdWord} {rest : List CmdWord} {ts : List Turn} (hr : s.cmdReady = true)
    (ho : s.offers = w :: rest) (hturns : s.turns = .sequencer :: ts) :
    step s = acceptWord w ((s.withTurns ts).withOffers rest) := by
  rw [step_sequencer hturns, sequencerStep_of_ready (s := s.withTurns ts) hr,
    accept_of_ready (s := s.withTurns ts) hr ho]

/-- Settles O24: the word at the head of the offers is accepted, and accepting a command is executing it. -/
theorem stepRunsDecodedCommand : Obligations.StepRunsDecodedCommand := by
  intro s w rest i hr ho hd
  refine ⟨fun ts hturns => ?_, fun hturns hq => ?_⟩
  · rw [step_accepts hr ho hturns, acceptWord_command hd]
    rfl
  · have hdrain : s.drainEnabled = false := s.drainEnabled_eq_false_iff.mpr hq
    rw [step_of_turns_nil hturns, freeTurn_of_no_move (State.pushEnabled_of_ready hr) (by simp [hdrain]),
      accept_of_ready hr ho, acceptWord_command hd]
    rfl

/-- Settles O25: accepting an Illegal word raises ILLEGAL_CMD before any other check. -/
theorem stepFaultsOnIllegalWord : Obligations.StepFaultsOnIllegalWord := by
  intro s w rest r ts hr ho hd hturns
  exact (step_accepts hr ho hturns).trans (acceptWord_illegal (s := (s.withTurns ts).withOffers rest) hd hr)

end Sys2Proof.Machine
end

section
/-! PROOFS. The registers over a step (10_state.md R22, R30): which lifecycle state follows which, a pass in progress, the
flags CLAIMED and MACT; then the state after a reset. -/

namespace Sys2Proof.Machine

/-! ### The lifecycle -/

theorem ExecEffect.st_cases {i : Instr} {s t : State} (e : ExecEffect i s t) :
    t.st = s.st ∨ s.cmdReady = true ∧ (t.st = .stream ∨ t.st = .fault) := by
  cases e with
  | none => exact .inl rfl
  | fault _ ready => exact .inr ⟨ready, .inr rfl⟩
  | init ready | clear ready | render _ ready => exact .inr ⟨ready, .inl rfl⟩

theorem AcceptEffect.st_cases {s t : State} (e : AcceptEffect s t) :
    t.st = s.st ∨ s.cmdReady = true ∧ (t.st = .stream ∨ t.st = .fault) := by
  cases e with
  | none => exact .inl rfl
  | illegal w rest r ready => exact .inr ⟨ready, .inr rfl⟩
  | command w rest i t ready offer decoded effect => exact effect.st_cases

/-- ST moves only by an accept, or by the push that ends a pass. -/
theorem StepEffect.st_cases {turn : Option Turn} {s t : State} (e : StepEffect turn s t) :
    t.st = s.st ∨ (s.cmdReady = true ∧ (t.st = .stream ∨ t.st = .fault)) ∨ (s.st = .stream ∧ t.st = .idle) := by
  cases e with
  | accept t effect => exact effect.st_cases.imp_right .inl
  | push x enabled =>
    by_cases hlast : s.k.toNat = 24
    · exact .inr (.inr ⟨(s.pushEnabled_iff.mp enabled).1, if_pos hlast⟩)
    · exact .inl (if_neg hlast)
  | none | offer | claimLevel | drain => exact .inl rfl

/-- Settles O40: an accept leads out of UNINIT and IDLE into STREAM or FAULT, a push out of STREAM into IDLE. -/
theorem lifecycleMoves : Obligations.LifecycleMoves := by
  intro s t _ hreset h
  rcases step_cases h with ⟨ts, hturns, -⟩ | ⟨-, effect⟩
  · simp [hturns] at hreset
  · rcases effect.st_cases with hsame | ⟨ready, ht⟩ | ⟨hst, ht⟩
    · rw [State.withTurns_st] at hsame
      rw [hsame]
      exact ⟨.inl, .inl, .inl, id⟩
    · have hlive : s.st = .uninit ∨ s.st = .idle := s.cmdReady_iff.mp ready
      refine ⟨fun _ => .inr ht, fun _ => .inr ht, fun hst => ?_, fun hst => ?_⟩
      · simp [hst] at hlive
      · simp [hst] at hlive
    · rw [State.withTurns_st] at hst
      simp [hst, ht]

/-! ### A pass in progress -/

theorem StepEffect.pass_registers {turn : Option Turn} {s t : State} (e : StepEffect turn s t) (hst : s.st = .stream) :
    t.opk = s.opk ∧ t.dig = s.dig ∧ t.mact = s.mact ∧ t.claimed = s.claimed ∧ t.fcode = s.fcode := by
  cases e with
  | accept t effect =>
    rw [effect.eq_of_not_ready (s.cmdReady_eq_false_iff.mpr (.inl hst))]
    exact ⟨rfl, rfl, rfl, rfl, rfl⟩
  | _ => exact ⟨rfl, rfl, rfl, rfl, rfl⟩

/-- In STREAM, ST and K change only by a push: K counts the word, or the word of slot 24 ends the pass. -/
theorem StepEffect.pass_counter {turn : Option Turn} {s t : State} (e : StepEffect turn s t) (hst : s.st = .stream) :
    t.st = .stream ∧ (t.k = s.k ∨ t.k = s.k + 1#5 ∧ ∃ x, t.txq = s.txq ++ [x]) ∨
      t.st = .idle ∧ t.k = 0#5 ∧ s.k.toNat = 24 ∧ ∃ x, t.txq = s.txq ++ [x] := by
  cases e with
  | accept t effect =>
    rw [effect.eq_of_not_ready (s.cmdReady_eq_false_iff.mpr (.inl hst))]
    exact .inl ⟨hst, .inl rfl⟩
  | push x =>
    by_cases hlast : s.k.toNat = 24
    · exact .inr ⟨if_pos hlast, if_pos hlast, hlast, x, rfl⟩
    · exact .inl ⟨(if_neg hlast).trans hst, .inr ⟨if_neg hlast, x, rfl⟩⟩
  | none | offer | claimLevel | drain => exact .inl ⟨hst, .inl rfl⟩

/-- Settles O39: in STREAM an accept waits, and a push or a drain leaves the registers of the pass but K. -/
theorem passIsNeverInterrupted : Obligations.PassIsNeverInterrupted := by
  intro s t hst hreset h
  rcases step_cases h with ⟨ts, hturns, -⟩ | ⟨-, effect⟩
  · simp [hturns] at hreset
  · obtain ⟨hopk, hdig, hmact, hclaimed, hfcode⟩ := effect.pass_registers hst
    have hoffers : ∃ more, t.offers = s.offers ++ more := by
      rcases effect.offers_of_not_ready (s.cmdReady_eq_false_iff.mpr (.inl hst)) with hsame | ⟨w, -, hmore⟩
      · exact ⟨[], by simpa using hsame⟩
      · exact ⟨[w], hmore⟩
    rcases effect.pass_counter hst with ⟨ht, hcount⟩ | ⟨ht, hend⟩
    · exact ⟨.inl ht, hopk, hdig, hmact, hclaimed, hfcode, hoffers, fun _ => hcount, fun hidle => by simp [ht] at hidle⟩
    · exact ⟨.inr ht, hopk, hdig, hmact, hclaimed, hfcode, hoffers, fun hstream => by simp [ht] at hstream,
        fun _ => hend⟩

/-! ### The flags -/

/-- CLAIMED and MACT agree. -/
def State.SameFlags (s t : State) : Prop := t.claimed = s.claimed ∧ t.mact = s.mact

/-- `word` is that of a command other than NOP, and CLAIMED, if it changes, is set by INIT. -/
def State.SetsFlags (word : Option CmdWord) (s t : State) : Prop :=
  ∃ (w : CmdWord) (i : Instr), word = some w ∧ decode w = .ok i ∧ i ≠ .nop ∧
    (t.claimed = s.claimed ∨ i = .init ∧ t.claimed = true)

theorem ExecEffect.sameFlags_or_ne_nop {i : Instr} {s t : State} (e : ExecEffect i s t) : s.SameFlags t ∨ i ≠ .nop := by
  cases e with
  | none | fault => exact .inl ⟨rfl, rfl⟩
  | init _ isInit => exact .inr (by simp [isInit])
  | clear _ notNop | render _ _ notNop => exact .inr notNop

theorem AcceptEffect.flags {s t : State} (e : AcceptEffect s t) : s.SameFlags t ∨ s.SetsFlags s.readyOffer t := by
  cases e with
  | none | illegal => exact .inl ⟨rfl, rfl⟩
  | command w rest i t ready offer decoded effect =>
    exact effect.sameFlags_or_ne_nop.imp_right fun notNop =>
      ⟨w, i, State.readyOffer_of_offers ready offer, decoded, notNop, effect.claimed⟩

theorem accept_flags {s t : State} (h : accept s = .next t) : s.SameFlags t ∨ s.SetsFlags s.readyOffer t := by
  obtain ⟨u, hu, effect⟩ := accept_effect s
  obtain rfl : t = u := by simpa [h] using hu
  exact effect.flags

theorem push_sameFlags {s t : State} (h : push s = .next t) : s.SameFlags t := by
  rcases push_cases h with ⟨-, rfl⟩ | ⟨x, -, -, rfl⟩ <;> exact ⟨rfl, rfl⟩

theorem drain_sameFlags {s t : State} (h : drain s = .next t) : s.SameFlags t := by
  rcases drain_cases h with ⟨-, rfl⟩ | ⟨x, rest, i, -, -, rfl⟩ <;> exact ⟨rfl, rfl⟩

theorem sequencerStep_flags {s t : State} (h : sequencerStep s = .next t) :
    s.SameFlags t ∨ s.SetsFlags s.readyOffer t := by
  unfold sequencerStep at h
  split at h
  · exact accept_flags h
  · exact accept_flags h
  · exact .inl (push_sameFlags h)
  · cases h
    exact .inl ⟨rfl, rfl⟩

theorem freeTurn_flags {s t : State} (hturns : s.turns = []) (h : freeTurn s = .next t) :
    s.SameFlags t ∨ s.SetsFlags s.acceptsNow t := by
  cases hp : s.pushEnabled with
  | true => exact .inl (push_sameFlags ((freeTurn_of_push hp).symm.trans h))
  | false =>
    cases hd : s.drainEnabled && s.healthy with
    | true =>
      obtain ⟨hqueued, hhealthy⟩ := Bool.and_eq_true_iff.mp hd
      exact .inl (drain_sameFlags ((freeTurn_of_drain hp hqueued hhealthy).symm.trans h))
    | false =>
      have hready : s.acceptsNow = s.readyOffer := by simp [State.acceptsNow, State.readyOffer, hturns, hp, hd]
      rw [hready]
      exact accept_flags ((freeTurn_of_no_move hp hd).symm.trans h)

/-- Read off `nextTurn` and not off `step_cases`, which does not say which word a step accepts. -/
theorem step_flags {s t : State} (hreset : s.turns.head? ≠ some .hostReset) (h : step s = .next t) :
    s.SameFlags t ∨ s.SetsFlags s.acceptsNow t := by
  unfold step nextTurn at h
  split at h
  · next hturns => exact freeTurn_flags hturns h
  · next turn ts hturns =>
    cases turn with
    | sequencer =>
      rw [State.acceptsNow_of_sequencer hturns]
      exact sequencerStep_flags (s := s.withTurns ts) h
    | hostReset => simp [hturns] at hreset
    | serializer => exact .inl (drain_sameFlags (s := s.withTurns ts) h)
    | hostOffer | hostReadStatus | platformClaim =>
      cases h
      exact .inl ⟨rfl, rfl⟩

/-- Settles O38: apart from a reset only an accepted command sets the flags, and its word is its encoding. -/
theorem flagsChangeOnlyAtAcceptance : Obligations.FlagsChangeOnlyAtAcceptance := by
  intro s t h
  by_cases hreset : s.turns.head? = some .hostReset
  · refine ⟨fun _ hset => ?_, fun _ _ => hreset, fun _ => .inl hreset⟩
    rcases step_cases h with ⟨ts, -, rfl⟩ | ⟨hno, -⟩
    · simp at hset
    · exact absurd hreset hno
  · rcases step_flags hreset h with ⟨hclaimed, hmact⟩ | ⟨w, i, haccepts, hd, hnop, hclaimed⟩
    · rw [hclaimed, hmact]
      exact ⟨fun h0 h1 => by simp [h0] at h1, fun h1 h0 => by simp [h0] at h1, fun hne => absurd rfl hne⟩
    · refine ⟨fun h0 h1 => ?_, fun h1 h0 => ?_, fun _ => .inr ⟨w, i, haccepts, hd, hnop⟩⟩
      · obtain ⟨rfl, -⟩ := hclaimed.resolve_left (by simp [h0, h1])
        rw [haccepts, ← (decode_eq_ok_iff w .init).mp hd]
        rfl
      · simp [h0, h1] at hclaimed

/-- Settles O41: each step moves words along the stream or appends the pass of the word it accepts behind them. -/
theorem stepAppendsAcceptedPass : Obligations.StepAppendsAcceptedPass := fun _ _ _ hreset h => step_promised hreset h

/-! ### The state after reset -/

theorem vecOf_getElem (n : Nat) (f : Nat → Color) (i : Nat) (h : i < n) : (Config.vecOf n f)[i] = f i := by
  simp [Config.vecOf]

theorem openParams_rom_lt (a : RomAddr) : memRead Config.openParams a < 2 ^ 24 := by
  have hword : memRead Config.openParams a = (Config.freeRomWord a.val).toNat := vecOf_getElem 250 _ a.val a.isLt
  rw [hword]
  exact BitVec.isLt _

theorem openParams_valid : Config.openParams.valid = true := by
  have hrom : ∀ i (h : i < 250), Config.openParams.rom[i] < 2 ^ 24 := fun i h => openParams_rom_lt ⟨i, h⟩
  have hcOn : Config.openParams.cOn < 2 ^ 24 := by
    have hmod : Config.freeCOn % (2 ^ 24 - 1) < 2 ^ 24 - 1 := Nat.mod_lt _ (by decide)
    exact Nat.add_lt_of_lt_sub hmod
  have hdepth : 1 ≤ Config.openParams.txqDepth := Nat.succ_pos _
  have hnonzero : 0 < Config.openParams.cOn := Nat.succ_pos _
  have hwidth : Config.openParams.colorW = 24 := rfl
  simpa [Params.valid, hwidth, hdepth, hnonzero] using And.intro hrom hcOn

theorem State.reset_inv : State.reset.Inv := State.reset.resetBlock_inv

theorem State.reset_colorsFit : State.reset.ColorsFit := by
  refine ⟨openParams_rom_lt, by simp [State.reset], fun i => ?_, by simp [State.reset]⟩
  have hword : State.reset.strip[i] = (Config.freeStripWord i.val).toNat := vecOf_getElem 25 _ i.val i.isLt
  rw [hword]
  exact BitVec.isLt _

/-- Settles O32: State.reset is its own reset, and its free words have 24 bits. -/
theorem resetStateMeetsInvariants : Obligations.ResetStateMeetsInvariants :=
  ⟨State.reset_inv, State.reset_colorsFit, openParams_valid,
    State.resetBlock_status (s := State.reset) (Nat.succ_pos _), rfl, rfl⟩

end Sys2Proof.Machine
end

section
/-! PROOFS. Noninterference (20_memory.md R51) and the clock edge (70_reset_and_hazards.md R192). Both replace parts of a
state that the agents' steps never read: the three parameters of the layout, and the turns to come. A step commutes with
every such replacement, which is said once for `State.mapEnv` and used for both. -/

namespace Sys2Proof.Machine

/-- The state with its configuration and its turns to come replaced. -/
def State.mapEnv (c : Params → Params) (f : List Turn → List Turn) (s : State) : State :=
  { s with cfg := c s.cfg, turns := f s.turns }

/-- `f` of the next state; a stop stays. -/
def mapNext (f : State → State) : Host.Outcome State Fault Refusal → Host.Outcome State Fault Refusal
  | .next t => .next (f t)
  | .fault r => .fault r
  | .refused r => .refused r

theorem mapNext_ite (g : State → State) (p : Prop) [Decidable p] (x y : Host.Outcome State Fault Refusal) :
    mapNext g (if p then x else y) = if p then mapNext g x else mapNext g y := apply_ite _ _ _ _

/-! ### Executing and accepting -/

section
variable (c : Params → Params) (f : List Turn → List Turn)

/-- `g` commutes with the replacement. -/
def EnvBlind (g : State → State) : Prop := ∀ s, g (s.mapEnv c f) = (g s).mapEnv c f

variable {c f}

theorem envBlind_id : EnvBlind c f fun s => s := fun _ => rfl

theorem envBlind_raiseFault (code : FCode) : EnvBlind c f fun s => s.raiseFault code := fun _ => rfl

theorem envBlind_beginClear : EnvBlind c f fun s => s.beginClear := fun _ => rfl

theorem envBlind_claim_beginClear : EnvBlind c f fun s => s.claim.beginClear := fun _ => rfl

theorem envBlind_beginRender (n : BitVec 4) : EnvBlind c f fun s => s.beginRender n := fun _ => rfl

/-- A choice by a flag that is not replaced keeps blindness. -/
theorem EnvBlind.ite {p : State → Bool} {g h : State → State} (hp : ∀ s, p (s.mapEnv c f) = p s)
    (hg : EnvBlind c f g) (hh : EnvBlind c f h) : EnvBlind c f fun s => if p s then g s else h s := by
  intro s
  cases hps : p s
  · simpa [hp, hps] using hh s
  · simpa [hp, hps] using hg s

theorem EnvBlind.whenClaimed {g : State → State} (hg : EnvBlind c f g) : EnvBlind c f (whenClaimed g) :=
  .ite (p := State.claimed) (fun _ => rfl) hg (envBlind_raiseFault .notInit)

theorem EnvBlind.whenReady {g : State → State} (hg : EnvBlind c f g) (s : State) :
    whenReady (s.mapEnv c f) g = mapNext (State.mapEnv c f) (whenReady s g) :=
  congrArg Host.Outcome.next (EnvBlind.ite (p := State.cmdReady) (fun _ => rfl) hg envBlind_id s)

theorem exec_mapEnv (i : Instr) (s : State) : exec i (s.mapEnv c f) = mapNext (State.mapEnv c f) (exec i s) := by
  cases i with
  | nop => exact envBlind_id.whenReady s
  | init =>
    have inner : EnvBlind c f fun s => if s.claimOk then s.claim.beginClear else s.raiseFault .claimFail :=
      .ite (p := State.claimOk) (fun _ => rfl) envBlind_claim_beginClear (envBlind_raiseFault .claimFail)
    exact (EnvBlind.ite (p := State.claimed) (fun _ => rfl) (envBlind_raiseFault .reinit) inner).whenReady s
  | clear => exact envBlind_beginClear.whenClaimed.whenReady s
  | render d =>
    cases hd : renderDigit d with
    | some n =>
      rw [exec_render_of_digit hd, exec_render_of_digit hd]
      exact (envBlind_beginRender n).whenClaimed.whenReady s
    | none =>
      rw [exec_render_of_no_digit hd, exec_render_of_no_digit hd]
      exact (envBlind_raiseFault .badDigit).whenClaimed.whenReady s
  | char code =>
    by_cases hdigit : 0x30 ≤ code.toNat ∧ code.toNat ≤ 0x39
    · rw [exec_char_of_digit (charDigit_of_digit hdigit), exec_char_of_digit (charDigit_of_digit hdigit)]
      exact (envBlind_beginRender _).whenClaimed.whenReady s
    · rw [exec_char_of_not_digit hdigit, exec_char_of_not_digit hdigit]
      have inner : EnvBlind c f fun s => if s.mact then s.beginClear else s :=
        .ite (p := State.mact) (fun _ => rfl) envBlind_beginClear envBlind_id
      exact inner.whenClaimed.whenReady s

theorem acceptWord_mapEnv (w : CmdWord) (s : State) :
    acceptWord w (s.mapEnv c f) = mapNext (State.mapEnv c f) (acceptWord w s) := by
  unfold acceptWord
  split
  · exact exec_mapEnv _ s
  · exact (envBlind_raiseFault .illegalCmd).whenReady s

theorem accept_mapEnv (s : State) : accept (s.mapEnv c f) = mapNext (State.mapEnv c f) (accept s) := by
  cases hr : s.cmdReady with
  | false =>
    rw [accept_of_not_ready hr, accept_of_not_ready (s := s.mapEnv c f) hr]
    rfl
  | true =>
    cases ho : s.offers with
    | nil =>
      rw [accept_of_offers_nil ho, accept_of_offers_nil (s := s.mapEnv c f) ho]
      rfl
    | cons w rest =>
      rw [accept_of_ready hr ho, accept_of_ready (s := s.mapEnv c f) hr ho]
      exact acceptWord_mapEnv w (s.withOffers rest)

/-! ### Push, drain and the turns -/

theorem drain_mapEnv (s : State) : drain (s.mapEnv c f) = mapNext (State.mapEnv c f) (drain s) := by
  cases hq : s.txq with
  | nil =>
    rw [drain_empty hq, drain_empty (s := s.mapEnv c f) hq]
    rfl
  | cons x rest =>
    have hq' : (s.mapEnv c f).txq = x :: rest := hq
    have hw : (s.mapEnv c f).w = s.w := rfl
    cases hi : slotOf s.w <;> simp only [drain, hq, hq', hw, hi] <;> rfl

section
variable (hrom : ∀ p, (c p).rom = p.rom) (hdepth : ∀ p, (c p).txqDepth = p.txqDepth)

include hrom in
theorem passWord_of_rom (p : Params) (kind : Opk) (d : Digit) (k : Slot) :
    passWord (c p) kind d k = passWord p kind d k := by
  cases kind with
  | zero => rfl
  | glyph => simp only [passWord, glyphWord, memRead, hrom]

include hrom in
theorem State.nextWord_mapEnv (s : State) : (s.mapEnv c f).nextWord = s.nextWord := by
  simp only [State.nextWord, State.mapEnv, passWord_of_rom hrom]

include hdepth in
theorem State.pushEnabled_mapEnv (s : State) : (s.mapEnv c f).pushEnabled = s.pushEnabled := by
  simp only [State.pushEnabled, State.busy, State.mapEnv, hdepth]

include hrom hdepth

theorem push_mapEnv (s : State) : push (s.mapEnv c f) = mapNext (State.mapEnv c f) (push s) := by
  cases hp : s.pushEnabled with
  | false =>
    rw [push_held hp, push_held ((State.pushEnabled_mapEnv hdepth s).trans hp)]
    rfl
  | true =>
    have hp' := (State.pushEnabled_mapEnv (f := f) hdepth s).trans hp
    cases hx : s.nextWord <;>
      simp only [push, hp, hp', State.nextWord_mapEnv hrom, hx, if_true] <;> rfl

theorem sequencerStep_mapEnv (s : State) :
    sequencerStep (s.mapEnv c f) = mapNext (State.mapEnv c f) (sequencerStep s) := by
  have hst : (s.mapEnv c f).st = s.st := rfl
  unfold sequencerStep
  rw [hst]
  split
  · exact accept_mapEnv s
  · exact accept_mapEnv s
  · exact push_mapEnv hrom hdepth s
  · rfl

theorem takeTurn_mapEnv (turn : Turn) (s : State) :
    takeTurn turn (s.mapEnv c f) = mapNext (State.mapEnv c f) (takeTurn turn s) := by
  cases turn with
  | sequencer => exact sequencerStep_mapEnv hrom hdepth s
  | serializer => exact drain_mapEnv s
  | hostOffer | hostReadStatus | hostReset | platformClaim => rfl

theorem freeTurn_mapEnv (s : State) : freeTurn (s.mapEnv c f) = mapNext (State.mapEnv c f) (freeTurn s) := by
  have hdrain : (s.mapEnv c f).drainEnabled = s.drainEnabled := rfl
  have hhealthy : (s.mapEnv c f).healthy = s.healthy := rfl
  simp only [freeTurn, State.pushEnabled_mapEnv hdepth, hdrain, hhealthy, push_mapEnv hrom hdepth, drain_mapEnv,
    accept_mapEnv, mapNext_ite]

end

end

/-- A step commutes with a change of the configuration that keeps the ROM and TXQ_DEPTH. -/
theorem step_mapEnv {c : Params → Params} (hrom : ∀ p, (c p).rom = p.rom) (hdepth : ∀ p, (c p).txqDepth = p.txqDepth)
    (s : State) : step (s.mapEnv c id) = mapNext (State.mapEnv c id) (step s) := by
  have hturns : (s.mapEnv c id).turns = s.turns := rfl
  unfold step nextTurn
  rw [hturns]
  split
  · exact freeTurn_mapEnv hrom hdepth s
  · next turn ts _ => exact takeTurn_mapEnv (f := id) hrom hdepth turn (s.withTurns ts)

/-- The configuration built with another pin, line encoding and colour layout. -/
def Params.relaid (pin encoding layout : Nat) (p : Params) : Params :=
  { p with outputPin := pin, wireEncoding := encoding, colorLayout := layout }

/-- Settles O48: rebuilding keeps the ROM and TXQ_DEPTH, all that a step reads of the configuration. -/
theorem layoutDoesNotInterfere : Obligations.LayoutDoesNotInterfere := fun s pin encoding layout =>
  step_mapEnv (c := Params.relaid pin encoding layout) (fun _ => rfl) (fun _ => rfl) s

/-! ### The clock edge -/

/-- The Sequencer's step does not look at the turns to come. -/
theorem sequencerStep_withTurns (s : State) (ts : List Turn) :
    sequencerStep (s.withTurns ts) = mapNext (fun t => t.withTurns ts) (sequencerStep s) :=
  sequencerStep_mapEnv (c := id) (f := fun _ => ts) (fun _ => rfl) (fun _ => rfl) s

theorem run_one (s : State) : run 1 s = step s := by
  rw [run_succ]
  cases step s <;> rfl

theorem State.withTurns_self {s : State} {ts : List Turn} (h : s.turns = ts) : s.withTurns ts = s := by
  rw [← h]
  rfl

theorem edge_of_no_delivery {s : State} {delivers : Bool} (h : (delivers && s.drainEnabled) = false) :
    edge true delivers s = sequencerStep s := by
  simp only [edge, h, Bool.false_eq_true, if_true, if_false]
  cases sequencerStep s <;> rfl

theorem edge_of_delivery {s t : State} {delivers : Bool} (h : (delivers && s.drainEnabled) = true)
    (hs : sequencerStep s = .next t) : edge true delivers s = drain t := by
  simp only [edge, h, hs, if_true]

/-- A Sequencer's turn and a Serializer's turn behind it are an edge on which the Serializer delivers. -/
theorem run_sequencer_serializer {s : State} {ts : List Turn} {delivers : Bool}
    (h : s.turns = .sequencer :: .serializer :: ts) (hd : (delivers && s.drainEnabled) = true) :
    run 2 s = edge true delivers (s.withTurns ts) := by
  have hfirst : step s = mapNext (fun t => t.withTurns (.serializer :: ts)) (sequencerStep (s.withTurns ts)) :=
    (step_sequencer h).trans (sequencerStep_withTurns (s.withTurns ts) _)
  rw [run_succ, hfirst]
  cases hseq : sequencerStep (s.withTurns ts) with
  | next t =>
    have hturns : t.turns = ts := (sequencerStep_effect hseq).turns
    have hsecond : step (t.withTurns (.serializer :: ts)) = drain (t.withTurns ts) := step_serializer rfl
    rw [State.withTurns_self hturns] at hsecond
    rw [edge_of_delivery (s := s.withTurns ts) hd hseq, ← hsecond]
    exact run_one _
  | fault r => simp only [edge, hseq, if_true, mapNext]
  | refused r => simp only [edge, hseq, if_true, mapNext]

/-- Settles O49: the turns of an edge are the Sequencer's and, where it delivers, the Serializer's; or a reset. -/
theorem edgeIsAnInterleaving : Obligations.EdgeIsAnInterleaving := by
  intro s rstN delivers ts hturns
  cases rstN with
  | false => exact (run_one s).trans (step_hostReset hturns)
  | true =>
    cases hd : delivers && s.drainEnabled with
    | true =>
      have hedge : edgeTurns true delivers s = [.sequencer, .serializer] := by simp [edgeTurns, hd]
      rw [hedge] at hturns ⊢
      exact run_sequencer_serializer hturns hd
    | false =>
      have hedge : edgeTurns true delivers s = [.sequencer] := by simp [edgeTurns, hd]
      rw [hedge] at hturns ⊢
      rw [edge_of_no_delivery (s := s.withTurns ts) hd]
      exact (run_one s).trans (step_sequencer hturns)

end Sys2Proof.Machine
end
